-- ==== Sys2Proof/Word.lean ====
section
/-! DEFINITION. The octet, octet strings and the plain index types of the device's units (R15, R23, 01_architecture.md). -/

namespace Sys2Proof

/-- An octet (00_scope.md: a byte and an octet are both 8 bits). -/
abbrev Byte := BitVec 8

/-- A string of octets, first octet first. -/
abbrev Octets := List Byte

/-- A 64-bit word of a Tabor core, of a command block or of an address (R129, R195). -/
abbrev Word64 := BitVec 64

/-- A 32-bit word. -/
abbrev Word32 := BitVec 32

/-- Partition number, 0 to 63 (00_scope.md, R40). -/
abbrev PartId := Fin 64

/-- Local port, 0 to 63 (R15). -/
abbrev LocalPort := Fin 64

/-- Line port, 0 to 15 (R15). -/
abbrev LinePort := Fin 16

/-- Cluster, 0 to 15 (R15). -/
abbrev ClusterId := Fin 16

/-- Device-wide Tabor core number 16c + k (R23). -/
abbrev CoreId := Fin 256

/-- Device-wide matrix engine number 4c + e (R23). -/
abbrev EngineId := Fin 64

/-- Die: 0 to 3 are P0 to P3, 4 is L0 and 5 is L1 (R435, R445). -/
abbrev DieId := Fin 6

/-- Carillon slice, one on each plane (R14). -/
abbrev SliceId := Fin 4

/-- Class of service, 0 to 7 (R116). -/
abbrev Class := Fin 8

/-- Management port MGMT0 or MGMT1 (R416). -/
abbrev MgmtPort := Fin 2

end Sys2Proof
end

