-- ==== Sys2Proof/Syntax.lean ====
section
/-! DEFINITION. The commands: one constructor of Instr per row of spec/opcode_table.json, with the operand types that
frames, descriptors, messages, segments and records give them. Fields that a wire format fixes are plain numbers in the
widths of that format; WellFormed.lean says which values a command's operands may take. -/

namespace Sys2Proof

/-! ### Codes -/

/-- Status codes (R128). -/
inductive Status where
  | ok | pending | timeout | memberMissing | poisonedNan | keyErased | keyExhausted | entropyFail
  | segmentFault | quota | streamFailed | overflow | partitionReload | badDescriptor | notPermitted | hangRestart
  deriving DecidableEq, Repr, Inhabited

/-- Number formats; codes 0x1 to 0x7 of R150 and R172, 0x8 and 0x9 of R203. -/
inductive Fmt where
  | fp32 | bf16 | fp16 | e4m3 | e5m2 | int8 | int32 | uint32 | uint8
  deriving DecidableEq, Repr, Inhabited

/-- Kinds of a peal (R150). -/
inductive PealKind where
  | reduce | allReduce | reduceScatter | allGather | broadcast
  deriving DecidableEq, Repr, Inhabited

/-- Address spaces (R45, R131, R215). -/
inductive Space where
  | global | scratch | basalt | coreData
  deriving DecidableEq, Repr, Inhabited

/-- Atomic operations (R134). -/
inductive AtomicOp where
  | fetchAdd | swap | compareSwap | fetchAnd | fetchOr | fetchXor
  deriving DecidableEq, Repr, Inhabited

/-! ### Yuviette descriptors (R123 to R140) -/

/-- What a descriptor's frame and header give it: its pair, class, sender, flags, tag and stream ID (R116, R123, R125). -/
structure DescHdr where
  /-- Local port of arrival. -/
  port : LocalPort
  /-- VLAN ID of the frame, 1 to 4,094. -/
  vlan : Nat
  /-- Priority code point. -/
  cls : Class
  /-- Source address of the frame. -/
  src : BitVec 48
  /-- Flag bit 0: completion on success. -/
  wantCompletion : Bool
  /-- Flag bit 1: fence. -/
  fence : Bool
  tag : Word32
  /-- Stream ID, 20 bits. -/
  stream : Nat
  /-- Credit units of its frame that the receive stage still holds (R249). -/
  units : Nat
  /-- The partition that the map gave when the frame's check completed (R117); none to look its pair up now. -/
  owner : Option Nat := none
  deriving DecidableEq, Repr, Inhabited

/-- Body of PEAL_START (R150). -/
structure PealStart where
  group : Nat
  kind : PealKind
  inFmt : Fmt
  outFmt : Fmt
  strict : Bool
  addSync : Bool
  peal : Nat
  count : Nat
  root : Nat
  coord : List Nat
  sync : Nat
  src : Nat
  dst : Nat
  syncAmount : Nat
  deriving DecidableEq, Repr, Inhabited

/-- Body of PEAL_STATUS (R167). -/
structure PealQuery where
  group : Nat
  peal : Nat
  firstRank : Nat
  bits : Nat
  deriving DecidableEq, Repr, Inhabited

/-- A group definition: octets 8 to 55 of the GROUP record less the partition (R88, R144). -/
structure GroupDef where
  group : Nat
  axisCount : Nat
  axisMask : Nat
  /-- 1 ordered, 2 exact. -/
  mode : Nat
  /-- 1 all members, 2 quorum. -/
  policy : Nat
  axisOrder : List Nat
  w : Nat
  /-- 0 means 24. -/
  p : Nat
  low : List Nat
  high : List Nat
  stride : List Nat
  slice : Nat
  deadline : Nat
  quorumMin : Nat
  /-- Projection program index, 0xFFFF for none. -/
  proj : Nat
  deriving DecidableEq, Repr, Inhabited

/-- Body of a memory operation (R131), without the data of a put. -/
structure MemOp where
  space : Space
  cluster : Nat
  length : Nat
  addr : Nat
  deriving DecidableEq, Repr, Inhabited

/-- The atomic fields of MEM_ATOMIC (R131, R134). -/
structure AtomicArgs where
  op : AtomicOp
  width : Nat
  a : Nat
  b : Nat
  deriving DecidableEq, Repr, Inhabited

/-- Body of a PROG_LOAD BEGIN (R218). -/
structure ProgBegin where
  index : Nat
  clusters : Nat
  cores : Nat
  entry : Nat
  textLen : Nat
  dataLen : Nat
  watchdog : Nat
  pubKey : Octets
  deriving DecidableEq, Repr, Inhabited

/-- Body of PROG_INVOKE (R220). -/
structure ProgInvoke where
  index : Nat
  /-- 0 to 15, or 0xFF for the device's choice. -/
  cluster : Nat
  addSync : Bool
  sync : Nat
  syncAmount : Nat
  args : List Word64
  deriving DecidableEq, Repr, Inhabited

/-- Body of TENSOR_LOAD less its op (R242). -/
structure TensorLoad where
  srcSpace : Space
  srcCluster : Nat
  dstSpace : Space
  dstCluster : Nat
  src : Nat
  dst : Nat
  capacity : Nat
  deriving DecidableEq, Repr, Inhabited

/-- Header of a completion, as a node or a peer sends it (R123, R125). -/
structure CompHdr where
  opcode : Nat
  status : Status
  tag : Word32
  stream : Nat
  /-- As DescHdr.owner (R117). -/
  owner : Option Nat := none
  deriving DecidableEq, Repr, Inhabited

/-! ### Carillon messages (R157) -/

/-- A Carillon message handed on by the transport: its stream, the site it came from, header fields and payload. -/
structure CarMsg where
  /-- Stream ID that carried it. -/
  stream : Nat
  /-- The remote site of the line port of arrival (R300). -/
  site : Nat
  group : Nat
  fingerprint : Nat
  peal : Nat
  chunk : Nat
  /-- Sender's site rank. -/
  sender : Nat
  contributors : Nat
  /-- The payload length field. -/
  length : Nat
  offset : Nat
  /-- The status octet, for ABORT. -/
  status : Status
  payload : Octets
  deriving DecidableEq, Repr, Inhabited

/-! ### Line segments (R305 to R307) -/

/-- Segment header fields (R305) that a body's handling reads. -/
structure SegHdr where
  stream : Nat
  /-- Flag bit 0: reverse. -/
  reverse : Bool
  /-- Flag bit 2. -/
  retransmission : Bool
  epoch : Nat
  seq : Nat
  incarnation : Nat
  keySlot : Nat
  salt : Nat
  counter : Nat
  /-- Receive timestamp of its frame, in half ns (R371); none to take it now. -/
  arrived : Option Nat := none
  deriving DecidableEq, Repr, Inhabited

/-- An acknowledgement record (R306). -/
structure AckRec where
  stream : Nat
  reverse : Bool
  incarnation : Nat
  cumulative : Nat
  window : Nat
  delay : Nat
  /-- 32 octets. -/
  bitmap : Octets
  /-- As SegHdr.arrived. -/
  arrived : Option Nat := none
  deriving DecidableEq, Repr, Inhabited

/-- The plaintext of a CONTROL body (R307). -/
structure ControlBody where
  status : Status
  cls : Class
  secs : Nat
  ns : Nat
  deriving DecidableEq, Repr, Inhabited

/-- A stream context's name: its role, stream ID and, for an accepted one, the originator site (R300). -/
structure CtxKey where
  accepted : Bool
  stream : Nat
  /-- Originator site of an accepted context; 0 for an originated one. -/
  site : Nat
  deriving DecidableEq, Repr, Inhabited

/-- One basic frame time at a line receiver: where each physical lane's frame begins, and its units from there on, scrambled (R278, R282,
R283, R285). -/
structure LineRx where
  /-- For each physical lane: the lane offset at which the lane frame begins, and its 5-bit units from there on. -/
  lanes : List (Nat × List Nat)
  deriving DecidableEq, Repr, Inhabited

/-- An edge of PPS_IN: how long PPS_IN was low before it, in ns, and where in the KCLK cycle it falls, in units of 0.5 ns (R368). -/
structure PpsEdge where
  lowNs : Nat
  half : Nat
  deriving DecidableEq, Repr, Inhabited

/-! ### Tabor fields -/

/-- Fields of a stream instruction (R204). -/
structure StreamFields where
  strict : Bool
  modifier : Nat
  rs2 : Nat
  rs1 : Nat
  rd : Nat
  deriving DecidableEq, Repr, Inhabited

/-- Target of REGISTER_WRITE: a CSR of a Tabor core (R195, R203) or a word of management space (R442). -/
inductive RegTarget where
  | csr (core : CoreId) (addr : Nat)
  | mgmt (addr : Nat)
  deriving DecidableEq, Repr, Inhabited

/-! ### Physical results -/

/-- Rails of R469. -/
inductive Rail where
  | core | line | sram | hbm | pho | io | keep
  deriving DecidableEq, Repr, Inhabited

/-- What a detected fault struck (R412). -/
inductive FaultUnit where
  | tabor (core : CoreId)
  | streamUnit (c : ClusterId)
  | engine (e : EngineId)
  | checkValue (c : ClusterId)
  /-- A cipher core during the seal for a line port. -/
  | cipherSeal (m : LinePort)
  /-- A cipher core during the open of a segment body from a line port: the body of the named stream. -/
  | cipherOpen (m : LinePort) (stream : Nat)
  /-- A cipher core of a line die (0 L0, 1 L1) during bulk message `id`. -/
  | cipherBulk (die : Fin 2) (id : Nat)
  /-- A double-bit error in a buffer. -/
  | buffer (die : DieId) (pool : Nat) (ptr : Nat)
  /-- A double-bit error read from memory for the operation of a node or DMA job. -/
  | memGet (id : Nat)
  | memDma (c : ClusterId)
  /-- A single-bit error, corrected. -/
  | corrected (die : DieId)
  deriving DecidableEq, Repr, Inhabited

/-- The kinds of SRAM array that stage 5 tests (R383). -/
inductive SramKind where
  | outputBuffer | scratch | taborMemory | staging | switchTable | contextCache | cipherQueue
  deriving DecidableEq, Repr, Inhabited

/-- One entry of a die's repair map: a failing row or column of an array and the redundant one that it is mapped onto (R383). -/
structure SramRepair where
  die : Nat
  kind : SramKind
  /-- Number of the array among the die's arrays of its kind. -/
  array : Nat
  /-- A row rather than a column. -/
  row : Bool
  failing : Nat
  redundant : Nat
  deriving DecidableEq, Repr, Inhabited

/-- Physical results that a start stage or a wake finds (R352, R353, R382 to R388). A unit not listed passes. -/
structure StageResult where
  /-- Raw entropy samples: 1,024 in stage 1 (R352), 768 in stage 4 (R353). -/
  samples : List Bool
  /-- SLATE_A, SLATE_B pass discovery (R76). -/
  flashA : Bool
  flashB : Bool
  /-- Their SFDP table reports erase suspend (R76, R108). -/
  suspendA : Bool
  suspendB : Bool
  /-- Root PLL 0, PLL 1 lock and pass the check (R382). -/
  pll0 : Bool
  pll1 : Bool
  /-- Failing rows and columns that were mapped onto redundant ones (R383). -/
  sramRepairs : List SramRepair
  /-- Dies of which a switch table, context cache or cipher queue outruns its redundancy (R383). -/
  sramDies : List Nat
  /-- Clusters, slices, local ports and line ports whose SRAM arrays outrun their redundancy (R383). -/
  sramClusters : List Nat
  sramSlices : List Nat
  sramLocal : List Nat
  sramLine : List Nat
  /-- Redundant SRAM rows and columns left on each die (R446). -/
  sramSpares : List Nat
  /-- (8b + waveguide) × 18 + wavelength of bundle b, and errors in 10^8 bits (R384). -/
  lambdaErrors : List (Nat × Nat)
  /-- (2 × port + direction) × 9 + wavelength, and errors. -/
  localErrors : List (Nat × Nat)
  /-- Power of the five laser inputs in 0.1 dBm (R385, R472). -/
  lasers : List Int
  /-- 9 × line port + physical lane, and errors in 10^10 bits (R385). -/
  serdesErrors : List (Nat × Nat)
  /-- 17 × stack + failing physical pseudo-channel (R387). -/
  hbmFails : List Nat
  /-- Failing physical matrix engines, 5 × cluster + k. -/
  engineFails : List Nat
  /-- Failing physical Tabor cores, 18 × cluster + k. -/
  coreFails : List Nat
  /-- Failing adder lanes, (64 × 17) groups of 17 per slice: lane number over all slices. -/
  adderFails : List Nat
  /-- Failing physical cipher cores, 36 × line die + k. -/
  cipherFails : List Nat
  /-- Failing stream units and check-value units, by cluster. -/
  clusterFails : List Nat
  deriving DecidableEq, Repr, Inhabited

/-- A unit of the power states (R423). -/
inductive PowerUnit where
  | cluster (c : ClusterId)
  | plane (p : Fin 4)
  | device
  deriving DecidableEq, Repr, Inhabited

/-- A Tocsin frame less its Ethernet header: session ID, sequence and body (R417). -/
structure TocsinFrame where
  session : Nat
  seq : Nat
  body : Octets
  deriving DecidableEq, Repr, Inhabited

/-! ### Commands -/

/-- The commands: one constructor per row of spec/opcode_table.json. -/
inductive Instr where
  | startBegin
  | startStageEnd (r : StageResult)
  | startStageLimit (r : StageResult)
  | resetEnter
  | resetColdEscalate
  | resetNRise
  | pwrgoodFall
  | railFault (rail : Rail)
  | keepPowerLoss
  | heldReport
  | pllLockLoss
  | refclkLoss
  | refclkReturn
  | refclkReturnWarmReset
  | unitFault (u : FaultUnit)
  | adderGroupFault (slice : SliceId) (use : Option (PartId × Nat × Nat × Nat))
  | sliceSubstitute (slice : SliceId)
  | localFrameRx (port : LocalPort) (frame : Octets)
  | creditFrameRx (port : LocalPort) (cumulative : Nat)
  | creditFrameTx (port : LocalPort)
  | creditTimeout (port : LocalPort)
  | localLinkUp (port : LocalPort)
  | localLinkDown (port : LocalPort)
  | pealStart (h : DescHdr) (b : PealStart)
  | pealStatus (h : DescHdr) (q : PealQuery)
  | groupDefine (h : DescHdr) (g : GroupDef)
  | groupRemove (h : DescHdr) (group : Nat)
  | memPut (h : DescHdr) (m : MemOp) (data : Octets)
  | memGet (h : DescHdr) (m : MemOp)
  | memAtomic (h : DescHdr) (m : MemOp) (a : AtomicArgs)
  | soAdd (h : DescHdr) (id amount : Nat)
  | soWaitGe (h : DescHdr) (id target timeout : Nat)
  | soReset (h : DescHdr) (id : Nat)
  | soRead (h : DescHdr) (id : Nat)
  | soWaitTimeout (desc : Nat)
  | progLoadBegin (h : DescHdr) (b : ProgBegin)
  | progLoadData (h : DescHdr) (index offset : Nat) (data : Octets)
  | progLoadEnd (h : DescHdr) (index : Nat) (sig : Octets)
  | progLoadTimeout (p : PartId)
  | progImageSwap (p : PartId) (index : Nat)
  | progInvoke (h : DescHdr) (b : ProgInvoke)
  | tensorPlace (h : DescHdr) (t : TensorLoad)
  | tensorExpand (h : DescHdr) (t : TensorLoad)
  | tensorLoadDone (die : Fin 2)
  | stepEnd (h : DescHdr) (step : Nat)
  | stepBoundary (p : PartId)
  | counterRead (h : DescHdr) (set first count : Nat)
  | hintNextEvent (h : DescHdr) (secs ns : Nat)
  | hintLapse (p : PartId)
  | fenceRelease (desc : Nat)
  | nodeCompletionRx (port : LocalPort) (vlan : Nat) (c : CompHdr) (body : Octets)
  | nodeOpTimeout (tag : Word32)
  | contributionReadDone (p : PartId) (group peal chunk : Nat) (exponentPass : Bool) (rank : Nat)
  | resultWriteDone (p : PartId) (group peal chunk rank : Nat)
  | exponentUp (p : PartId) (m : CarMsg)
  | exponentDown (p : PartId) (m : CarMsg)
  | partialUp (p : PartId) (m : CarMsg)
  | resultDown (p : PartId) (m : CarMsg)
  | abort (p : PartId) (m : CarMsg)
  | pealDeadline (p : PartId) (group peal : Nat)
  | pealRemoteDeadline (p : PartId) (group peal : Nat)
  | projectionDone (invocation : Nat)
  | invocationStart (c : ClusterId)
  | taborInstruction (core : CoreId)
  | ecallEndCore (core : CoreId)
  | ecallEndInvocation (core : CoreId)
  | invocationEnd (invocation : Nat)
  | watchdogExpiry (core : CoreId)
  | registerWrite (t : RegTarget) (v : Word64)
  | ssum (core : CoreId) (f : StreamFields)
  | smap (core : CoreId) (f : StreamFields)
  | sscan (core : CoreId) (f : StreamFields)
  | sgather (core : CoreId) (f : StreamFields)
  | sfilter (core : CoreId) (f : StreamFields)
  | ssort (core : CoreId) (f : StreamFields)
  | smerge (core : CoreId) (f : StreamFields)
  | streamInstructionDone (c : ClusterId)
  | swait (core : CoreId) (rd : Fin 32)
  | sdma (core : CoreId) (rs1 rd : Fin 32)
  | dwait (core : CoreId) (rs1 rd : Fin 32)
  | dmaDone (c : ClusterId)
  | msub (core : CoreId) (rs1 rd : Fin 32)
  | mwait (core : CoreId) (rs1 rd : Fin 32)
  | matrixCommandDone (e : EngineId)
  | cvlock (core : CoreId) (rd : Fin 32)
  | cvunlock (core : CoreId) (rd : Fin 32)
  | cvCtrlWrite (core : CoreId) (width : Nat) (v : Word64)
  | cvDataWrite (core : CoreId) (width : Nat) (v : Word64)
  | cvResultRead (core : CoreId) (rd : Fin 32)
  | itemAdmission (item : Nat)
  | writerAdmit (out : Fin 80)
  | itemWriteDone (item : Nat)
  | refcountDecrement (die : DieId) (pool ptr : Nat)
  | outputSelect (port : LocalPort)
  | lineFrameSlot (m : LinePort)
  | sealDone (m : LinePort) (late : Bool)
  | lineFrameRx (m : LinePort) (r : LineRx)
  | dlosDeclare (m : LinePort)
  | dlosClear (m : LinePort)
  | dlofDeclare (m : LinePort)
  | dlofClear (m : LinePort)
  | dlomDeclare (m : LinePort)
  | dlomClear (m : LinePort)
  | mchSerialFrame (n : Fin 4) (txd : Octets)
  | pmSecond
  | dataSegmentRx (m : LinePort) (h : SegHdr) (body : Octets)
  | ackBlockRx (m : LinePort) (records : List AckRec)
  | streamOpenRx (m : LinePort) (h : SegHdr) (b : ControlBody)
  | streamResetRx (m : LinePort) (h : SegHdr) (b : ControlBody)
  | remoteOperationRx (p : PartId) (site : Nat) (item : Octets)
  | streamCompletionRx (p : PartId) (c : CompHdr) (body : Octets)
  | ackDelayExpiry (k : CtxKey)
  | retxTimer (k : CtxKey)
  | streamAgeFail (k : CtxKey)
  | reassemblyBufferGrant (k : CtxKey)
  | acceptedContextFree (k : CtxKey)
  | keyGrantRequest (die : Fin 2) (slot : Nat)
  | lineKeyActivation (m : LinePort)
  | entropyTestFail (aptFailed : Bool)
  | entropyRetest (samples : List Bool)
  | drbgReseed (samples : List Bool)
  | keyWrap (record : Octets)
  | timeSet (record : Octets)
  | timeSetPpsTimeout
  | slewComplete
  | ppsInEdge (edge : PpsEdge)
  | ppsHoldoverTimeout
  | ppsOutEdge (rise : Bool)
  | timeChallengeExpiry
  | ownerBind (record : Octets)
  | debugChallenge
  | timeChallenge
  | debugUnlock (record : Octets)
  | jtagBypass (tdi : Bool)
  | jtagIdcode
  | jtagSamplePreload (pins shiftIn : List Bool)
  | jtagExtest
  | imageBegin (header : Octets)
  | slotEraseDone
  | imageData (offset : Nat) (data : Octets)
  | imageEnd
  | imageUpdateTimeout
  | secondDeviceCopyDone (ok : Bool)
  | backgroundCopy
  | criticalLogWrite
  | reload (record : Octets)
  | release (record : Octets)
  | partitionBringupDone (p : PartId)
  | reloadDone (p : PartId)
  | scrubDone (p : PartId)
  | windowSwitch (p : PartId)
  | mirrorCommit (p : PartId)
  | mirrorTimeout (p : PartId)
  | mirrorLagProbe (p : PartId)
  | heldBackProbe (p : PartId)
  | admitRestore (target : Nat)
  | admitDiscard (target : Nat)
  | restoreDone (p : PartId)
  | watchdogWrite (v : Word32)
  | fwWatchdogExpiry
  | fwLockstepFault
  | heartbeat
  | hello (port : MgmtPort) (f : TocsinFrame)
  | proof (port : MgmtPort) (f : TocsinFrame)
  | proofTimeout (session : Nat)
  | record (port : MgmtPort) (f : TocsinFrame)
  | close (port : MgmtPort) (f : TocsinFrame)
  | sessionIdleTimeout (session : Nat)
  | sessionCertExpiry (session : Nat)
  | go
  | read (addr count select : Nat)
  | write (addr value : Nat)
  | readSeqWrite (value : Nat)
  | resetWarm
  | resetCold
  | eventQueueDrain
  | powerStateChoose (u : PowerUnit)
  | powerEntryDone (u : PowerUnit)
  | wakeTimer (u : PowerUnit)
  | wakeDone (u : PowerUnit)
  | watchWakeDone (r : StageResult)
  | lineSignalWake (m : LinePort)
  | temperatureWake (temp : Int)
  | wake
  | maintenanceWindow
  | throttleStart (byTemperature : Bool)
  | throttleEnd
  | thermNAssert (die : DieId) (temp : Int)
  | thermNRelease (temps : List Int)
  | tocsinFrameDrop (port : MgmtPort) (frame : Octets)
  | mgmtLinkChange (port : MgmtPort) (up : Bool)
  | bulkMessageDone (id : Nat)
  | checkValueUnitFree (c : ClusterId)
  | flashProgramDone (device : Fin 2)
  deriving DecidableEq, Repr

end Sys2Proof
end

