-- ==== Sys2Proof/Machine/Bytes.lean ====
section
/-! DEFINITION. Octet order, slices and check values: network order and little-endian order (R3, R4, R197),
and the CRCs of the check-value unit (R226), which frames, records and the flow hash use too. -/

namespace Sys2Proof.Machine

/-- The big-endian (network order) value of an octet string (R3). -/
def beNat (o : Octets) : Nat := o.foldl (fun a b => a * 256 + b.toNat) 0

/-- The little-endian value of an octet string (R3, R197). -/
def leNat : Octets → Nat
  | [] => 0
  | b :: r => b.toNat + 256 * leNat r

/-- `n` octets of a value, least significant first. -/
def leBytes : Nat → Nat → Octets
  | 0, _ => []
  | n + 1, v => BitVec.ofNat 8 v :: leBytes n (v / 256)

/-- `n` octets of a value in network order, most significant first (R3). -/
def beBytes (n v : Nat) : Octets := (leBytes n v).reverse

/-- `n` octets from offset `o`; octets past the end are absent. -/
def slice (o n : Nat) (x : Octets) : Octets := (x.drop o).take n

/-- The network-order field of `n` octets at offset `o`. -/
def beAt (o n : Nat) (x : Octets) : Nat := beNat (slice o n x)

/-- The little-endian field of `n` octets at offset `o`. -/
def leAt (o n : Nat) (x : Octets) : Nat := leNat (slice o n x)

/-- The octet at offset `o`, 0 past the end. -/
def octetAt (o : Nat) (x : Octets) : Nat := (x.getD o 0).toNat

/-- Every octet of the range is 0: a reserved field in order (R6). -/
def zerosAt (o n : Nat) (x : Octets) : Bool := (slice o n x).all (· == 0)

/-- `n` zero octets. -/
def zeros (n : Nat) : Octets := List.replicate n 0

/-- `x` cut or filled with `f` to exactly `n` octets. -/
def fitTo (n : Nat) (f : Byte) (x : Octets) : Octets := x.take n ++ List.replicate (n - x.length) f

/-- `x` with the octets of `d` written over it from offset `o`; writes past the end are lost. -/
def patch (o : Nat) (d x : Octets) : Octets :=
  x.take o ++ d.take (x.length - o) ++ x.drop (o + d.length)

/-- Bit `i` of a value. -/
def bitOf (v i : Nat) : Bool := v.testBit i

/-- Bits [hi:lo] of a value. -/
def bitsOf (v hi lo : Nat) : Nat := (v >>> lo) % 2 ^ (hi + 1 - lo)

/-- Two's complement reading of the low `n` bits. -/
def signedOf (n v : Nat) : Int := (BitVec.ofNat n v).toInt

/-- The low `n` bits of an integer, two's complement. -/
def unsignedOf (n : Nat) (v : Int) : Nat := (BitVec.ofInt n v).toNat

/-- ceil(a / b). -/
def ceilDiv (a b : Nat) : Nat := (a + b - 1) / b

/-- `rne(x, q)` of 00_scope.md on a ratio a / b: the nearest integer, ties to even. -/
def rneDiv (a : Int) (b : Nat) : Int :=
  let q := a.fdiv b
  let r := a - q * b
  if 2 * r < b then q
  else if 2 * r > b then q + 1
  else if q % 2 == 0 then q else q + 1

/-- `a` is later than `b` as n-bit serial numbers (R9). -/
def later (n a b : Nat) : Bool :=
  let d := (a + 2 ^ n - b % 2 ^ n) % 2 ^ n
  decide (1 ≤ d) && decide (d < 2 ^ (n - 1))

/-- `a` is earlier than `b` as n-bit serial numbers (R9). -/
def earlier (n a b : Nat) : Bool :=
  let d := (a + 2 ^ n - b % 2 ^ n) % 2 ^ n
  decide (2 ^ (n - 1) < d)

/-- (a − b) mod 2^n (R9, R10). -/
def serialDiff (n a b : Nat) : Nat := (a + 2 ^ n - b % 2 ^ n) % 2 ^ n

/-- The bits of an octet, bit 7 first (R4). -/
def octetBits (b : Byte) : List Bool := (List.range 8).map (fun i => b.getLsbD (7 - i))

/-- The bits of an octet string in sending order, bit 7 of each octet first (R4, R238). -/
def bitsOfOctets (x : Octets) : List Bool := x.flatMap octetBits

/-- The value of a bit list, first bit most significant. -/
def natOfBits (l : List Bool) : Nat := l.foldl (fun a b => 2 * a + b.toNat) 0

/-- A bit list cut into octets, bit 7 first; `fuel` octets at most. -/
def octetsOfBits : Nat → List Bool → Octets
  | 0, _ => []
  | n + 1, l => BitVec.ofNat 8 (natOfBits (l.take 8)) :: octetsOfBits n (l.drop 8)

/-- A CRC of R226: width, polynomial, initial value, reflection in and out, final XOR. -/
structure CrcAlg where
  width : Nat
  poly : Nat
  init : Nat
  refl : Bool
  xorOut : Nat
  deriving DecidableEq, Repr

/-- CRC-32C (R226, code 0x1). -/
def crc32c : CrcAlg := ⟨32, 0x1EDC6F41, 0xFFFFFFFF, true, 0xFFFFFFFF⟩

/-- CRC-32 of IEEE 802.3 (R226, code 0x2), the frame check sequence. -/
def crc32 : CrcAlg := ⟨32, 0x04C11DB7, 0xFFFFFFFF, true, 0xFFFFFFFF⟩

/-- CRC-16/CCITT (R226, code 0x3). -/
def crc16 : CrcAlg := ⟨16, 0x1021, 0xFFFF, false, 0⟩

/-- CRC-64/ECMA-182 (R226, code 0x4). -/
def crc64 : CrcAlg := ⟨64, 0x42F0E1EBA9EA3693, 0, false, 0⟩

/-- The algorithm of a code of R226; none for 0 and the reserved codes. -/
def crcOfCode : Nat → Option CrcAlg
  | 1 => some crc32c
  | 2 => some crc32
  | 3 => some crc16
  | 4 => some crc64
  | _ => none

/-- The register after one input bit (the register is kept unreflected). -/
def crcBit (a : CrcAlg) (r : Nat) (b : Bool) : Nat :=
  let top := r.testBit (a.width - 1)
  let r' := (2 * r) % 2 ^ a.width
  if top != b then r' ^^^ a.poly else r'

/-- The register after one octet: bit 0 first when the algorithm reflects its input, bit 7 first otherwise. -/
def crcOctet (a : CrcAlg) (r : Nat) (b : Byte) : Nat :=
  let bits := octetBits b
  (if a.refl then bits.reverse else bits).foldl (crcBit a) r

/-- `n` bits of a value reversed. -/
def reflect (n v : Nat) : Nat := natOfBits ((List.range n).map (fun i => v.testBit i))

/-- The check value of a register: reflection out, then the final XOR. -/
def crcOut (a : CrcAlg) (r : Nat) : Nat := (if a.refl then reflect a.width r else r) ^^^ a.xorOut

/-- The check value of an octet string. -/
def crcOf (a : CrcAlg) (x : Octets) : Nat := crcOut a (x.foldl (crcOctet a) a.init)

end Sys2Proof.Machine
end

