-- ==== Sys2Proof/Machine/Crypto.lean ====
section
/-! DEFINITION. The cryptographic functions that the spec names by their standards: SHA-384, AES-256, GCM (SP 800-38D),
CMAC (SP 800-38B), the KDFs (SP 800-108, SP 800-56C), key wrap (SP 800-38F), CTR_DRBG (SP 800-90A) and P-384
(FIPS 186-5, SP 800-56A), as R36, R328, R344 to R350 and R353 use them. PRESUMED: the algorithms are the standards' own
(log entry 4). -/

namespace Sys2Proof.Machine

/-! ### SHA-384 -/

/-- The 80 round constants of SHA-384. -/
def shaK : List Word64 :=
  [0x428A2F98D728AE22, 0x7137449123EF65CD, 0xB5C0FBCFEC4D3B2F, 0xE9B5DBA58189DBBC, 0x3956C25BF348B538, 0x59F111F1B605D019, 0x923F82A4AF194F9B, 0xAB1C5ED5DA6D8118] ++
   [0xD807AA98A3030242, 0x12835B0145706FBE, 0x243185BE4EE4B28C, 0x550C7DC3D5FFB4E2, 0x72BE5D74F27B896F, 0x80DEB1FE3B1696B1, 0x9BDC06A725C71235, 0xC19BF174CF692694] ++
   [0xE49B69C19EF14AD2, 0xEFBE4786384F25E3, 0x0FC19DC68B8CD5B5, 0x240CA1CC77AC9C65, 0x2DE92C6F592B0275, 0x4A7484AA6EA6E483, 0x5CB0A9DCBD41FBD4, 0x76F988DA831153B5] ++
   [0x983E5152EE66DFAB, 0xA831C66D2DB43210, 0xB00327C898FB213F, 0xBF597FC7BEEF0EE4, 0xC6E00BF33DA88FC2, 0xD5A79147930AA725, 0x06CA6351E003826F, 0x142929670A0E6E70] ++
   [0x27B70A8546D22FFC, 0x2E1B21385C26C926, 0x4D2C6DFC5AC42AED, 0x53380D139D95B3DF, 0x650A73548BAF63DE, 0x766A0ABB3C77B2A8, 0x81C2C92E47EDAEE6, 0x92722C851482353B] ++
   [0xA2BFE8A14CF10364, 0xA81A664BBC423001, 0xC24B8B70D0F89791, 0xC76C51A30654BE30, 0xD192E819D6EF5218, 0xD69906245565A910, 0xF40E35855771202A, 0x106AA07032BBD1B8] ++
   [0x19A4C116B8D2D0C8, 0x1E376C085141AB53, 0x2748774CDF8EEB99, 0x34B0BCB5E19B48A8, 0x391C0CB3C5C95A63, 0x4ED8AA4AE3418ACB, 0x5B9CCA4F7763E373, 0x682E6FF3D6B2B8A3] ++
   [0x748F82EE5DEFB2FC, 0x78A5636F43172F60, 0x84C87814A1F0AB72, 0x8CC702081A6439EC, 0x90BEFFFA23631E28, 0xA4506CEBDE82BDE9, 0xBEF9A3F7B2C67915, 0xC67178F2E372532B] ++
   [0xCA273ECEEA26619C, 0xD186B8C721C0C207, 0xEADA7DD6CDE0EB1E, 0xF57D4F7FEE6ED178, 0x06F067AA72176FBA, 0x0A637DC5A2C898A6, 0x113F9804BEF90DAE, 0x1B710B35131C471B] ++
   [0x28DB77F523047D84, 0x32CAAB7B40C72493, 0x3C9EBE0A15C9BEBC, 0x431D67C49C100D4C, 0x4CC5D4BECB3E42B6, 0x597F299CFC657E2A, 0x5FCB6FAB3AD6FAEC, 0x6C44198C4A475817]

/-- The initial hash value of SHA-384. -/
def shaInit : List Word64 := [0xCBBB9D5DC1059ED8, 0x629A292A367CD507, 0x9159015A3070DD17, 0x152FECD8F70E5939, 0x67332667FFC00B31, 0x8EB44A8768581511, 0xDB0C2E0D64F98FA7, 0x47B5481DBEFA4FA4]

/-- Padding: 0x80, zeros, and the 128-bit length, to a multiple of 128 octets. -/
def shaPad (x : Octets) : Octets :=
  x ++ [0x80] ++ zeros ((256 - (x.length + 17) % 128) % 128) ++ beBytes 16 (8 * x.length)

/-- The message schedule grown by one word; the list holds the latest word first. -/
def shaExtend (w : List Word64) : List Word64 :=
  let g (i : Nat) : Word64 := w.getD (i - 1) 0
  let a := g 15
  let b := g 2
  let s0 := a.rotateRight 1 ^^^ a.rotateRight 8 ^^^ (a >>> 7)
  let s1 := b.rotateRight 19 ^^^ b.rotateRight 61 ^^^ (b >>> 6)
  (g 16 + s0 + g 7 + s1) :: w

/-- `n` more words of the schedule. -/
def shaSchedule : Nat → List Word64 → List Word64
  | 0, w => w
  | n + 1, w => shaSchedule n (shaExtend w)

/-- One round on the eight working variables. -/
def shaRound (v : List Word64) (kw : Word64) : List Word64 :=
  match v with
  | [a, b, c, d, e, f, g, hh] =>
    let s1 := e.rotateRight 14 ^^^ e.rotateRight 18 ^^^ e.rotateRight 41
    let ch := (e &&& f) ^^^ (~~~e &&& g)
    let t1 := hh + s1 + ch + kw
    let s0 := a.rotateRight 28 ^^^ a.rotateRight 34 ^^^ a.rotateRight 39
    let mj := (a &&& b) ^^^ (a &&& c) ^^^ (b &&& c)
    [t1 + s0 + mj, a, b, c, d + t1, e, f, g]
  | w => w

/-- One 128-octet block. -/
def shaBlock (h : List Word64) (blk : Octets) : List Word64 :=
  let w0 := (List.range 16).map (fun i => BitVec.ofNat 64 (beAt (8 * i) 8 blk))
  let w := (shaSchedule 64 w0.reverse).reverse
  let v := (List.zipWith (· + ·) shaK w).foldl shaRound h
  List.zipWith (· + ·) h v

/-- `n` blocks of a padded message. -/
def shaBlocks : Nat → List Word64 → Octets → List Word64
  | 0, h, _ => h
  | n + 1, h, x => shaBlocks n (shaBlock h (x.take 128)) (x.drop 128)

/-- SHA-384 of an octet string, 48 octets. -/
def sha384 (x : Octets) : Octets :=
  let p := shaPad x
  ((shaBlocks (p.length / 128) shaInit p).take 6).flatMap (fun w => beBytes 8 w.toNat)

/-! ### AES-256 -/

/-- The S-box, entry 0 in the most significant octet. -/
def aesSboxBits : Nat :=
  0x637C777BF26B6FC53001672BFED7AB76CA82C97DFA5947F0ADD4A2AF9CA472C0B7FD9326363FF7CC34A5E5F171D8311504C723C31896059A071280E2EB27B27509832C1A1B6E5AA0523BD6B329E32F8453D100ED20FCB15B6ACBBE394A4C58CFD0EFAAFB434D338545F9027F503C9FA851A3408F929D38F5BCB6DA2110FFF3D2CD0C13EC5F974417C4A77E3D645D197360814FDC222A908846EEB814DE5E0BDBE0323A0A4906245CC2D3AC629195E479E7C8376D8DD54EA96C56F4EA657AAE08BA78252E1CA6B4C6E8DD741F4BBD8B8A703EB5664803F60E613557B986C11D9EE1F8981169D98E949B1E87E9CE5528DF8CA1890DBFE6426841992D0FB054BB16

/-- The S-box of AES. -/
def aesSub (b : Byte) : Byte := BitVec.ofNat 8 (aesSboxBits >>> (8 * (255 - b.toNat)))

/-- The inverse S-box, entry 0 in the most significant octet. -/
def aesInvSboxBits : Nat :=
  0x52096AD53036A538BF40A39E81F3D7FB7CE339829B2FFF87348E4344C4DEE9CB547B9432A6C2233DEE4C950B42FAC34E082EA16628D924B2765BA2496D8BD12572F8F66486689816D4A45CCC5D65B6926C704850FDEDB9DA5E154657A78D9D8490D8AB008CBCD30AF7E45805B8B34506D02C1E8FCA3F0F02C1AFBD0301138A6B3A9111414F67DCEA97F2CFCEF0B4E67396AC7422E7AD3585E2F937E81C75DF6E47F11A711D29C5896FB7620EAA18BE1BFC563E4BC6D279209ADBC0FE78CD5AF41FDDA8338807C731B11210592780EC5F60517FA919B54A0D2DE57A9F93C99CEFA0E03B4DAE2AF5B0C8EBBB3C83539961172B047EBA77D626E169146355210C7D

/-- The inverse S-box of AES. -/
def aesInvSub (b : Byte) : Byte := BitVec.ofNat 8 (aesInvSboxBits >>> (8 * (255 - b.toNat)))

/-- Multiplication by x in GF(2^8) modulo x^8 + x^4 + x^3 + x + 1. -/
def aesXtime (b : Byte) : Byte := if b.getLsbD 7 then (b <<< 1) ^^^ 0x1B else b <<< 1

/-- The powers of x + 1 from 0 to 254, power 0 in the most significant octet of 255. -/
def aesPowers : Nat :=
  0x0103050F113355FF1A2E7296A1F813355FE13848D87395A4F702060A1E2266AAE5345CE43759EB266ABED97090ABE63153F5040C143C44CC4FD168B8D36EB2CD4CD467A9E03B4DD762A6F10818287888839EB9D06BBDDC7F8198B3CE49DB769AB5C457F9103050F00B1D2769BBD661A3FE192B7D8792ADEC2F7193AEE92060A0FB163A4ED26DB7C25DE73256FA153F41C35EE23D47C940C05BED2C749CBFDA759FBAD564ACEF2A7E829DBCDF7A8E89809BB6C158E82365AFEA256FB1C843C554FC1F2163A5F407091B2D7799B0CB46CA45CF4ADE798B8691A8E33E42C651F30E12365AEE297B8D8C8F8A8594A7F20D17394BDD7C8497A2FD1C246CB4C752F6

/-- The logarithms to base x + 1, that of 1 in the most significant octet of 255. -/
def aesLogs : Nat :=
  0x00190132021AC64BC71B6833EEDF036404E00E348D81EF4C7108C8F8691CC17DC21DB5F9B9276A4DE4A6729AC90978652F8A05210FE12412F082453593DA8E968FDBBD36D0CE94135CD2F14046833866DDFD30BF068B62B325E298228891107E6E48C3A3B61E423A6B2854FA853DBA2B790A159B9F5ECA4ED4ACE5F373A757AF58A850F4EAD6744FAEE9D5E7E6ADE82CD7757AEB160BF559CB5FB09CA951A07F0CF66F17C449ECD8431F2DA4767BB7CCBB3E5AFB60B1863B52A16CAA55299D97B2879061BEDCFCBC95CFCD373F5BD15339843C41A26D47142A9E5D56F2D3AB441192D923202E89B47CB8267799E3A5674AEDDEC531FE180D638C80C0F77007

/-- Multiplication in GF(2^8), by logarithms. -/
def aesMul (a b : Byte) : Byte :=
  if a.toNat * b.toNat == 0 then 0
  else
    let k := (aesLogs >>> (8 * (255 - a.toNat))) % 256 + (aesLogs >>> (8 * (255 - b.toNat))) % 256
    BitVec.ofNat 8 (aesPowers >>> (8 * (254 - k % 255)))

/-- Octet-wise exclusive or. -/
def xorOctets (a b : Octets) : Octets := List.zipWith (· ^^^ ·) a b

/-- The key schedule grown by one 4-octet word; the list holds the latest word first, `i` is the new word's number. -/
def aesKeyWord (ws : List Octets) (i : Nat) : List Octets :=
  let t := ws.getD 0 []
  let back := ws.getD 7 []
  let rcon : Byte := (List.range (i / 8 - 1)).foldl (fun r _ => aesXtime r) 1
  let t' :=
    if i % 8 == 0 then
      match t.map aesSub with
      | [a, b, c, d] => [b ^^^ rcon, c, d, a]
      | z => z
    else if i % 8 == 4 then t.map aesSub
    else t
  xorOctets back t' :: ws

/-- The fifteen 16-octet round keys of a 32-octet key. -/
def aesRoundKeys (key : Octets) : List Octets :=
  let w0 := (List.range 8).map (fun i => slice (4 * i) 4 key)
  let ws := ((List.range 52).foldl (fun ws i => aesKeyWord ws (i + 8)) w0.reverse).reverse
  (List.range 15).map (fun r => (ws.drop (4 * r)).take 4 |>.flatten)

/-- ShiftRows on the 16 octets in column order. -/
def aesShiftRows (s : Octets) : Octets :=
  (List.range 16).map (fun i => s.getD ((i + 4 * (i % 4)) % 16) 0)

/-- InvShiftRows. -/
def aesInvShiftRows (s : Octets) : Octets :=
  (List.range 16).map (fun i => s.getD ((i + 12 * (i % 4)) % 16) 0)

/-- A column times the circulant matrix of row `m`. -/
def aesMixWith (m : List Byte) (s : Octets) : Octets :=
  (List.range 16).map (fun i =>
    let c := i / 4 * 4
    (List.range 4).foldl (fun acc k => acc ^^^ aesMul (m.getD ((k + 4 - i % 4) % 4) 0) (s.getD (c + k) 0)) 0)

/-- The AES-256 block cipher on 16 octets. -/
def aesEncrypt (key blk : Octets) : Octets :=
  match aesRoundKeys key with
  | [] => blk
  | k0 :: ks =>
    let s := (ks.take 13).foldl (fun s k =>
      xorOctets (aesMixWith [2, 3, 1, 1] (aesShiftRows (s.map aesSub))) k) (xorOctets blk k0)
    xorOctets (aesShiftRows (s.map aesSub)) (ks.getD 13 [])

/-- The inverse of the block cipher. -/
def aesDecrypt (key blk : Octets) : Octets :=
  match (aesRoundKeys key).reverse with
  | [] => blk
  | k14 :: ks =>
    let s := (ks.take 13).foldl (fun s k =>
      aesMixWith [14, 11, 13, 9] (xorOctets ((aesInvShiftRows s).map aesInvSub) k)) (xorOctets blk k14)
    xorOctets ((aesInvShiftRows s).map aesInvSub) (ks.getD 13 [])

/-! ### GCM -/

/-- Multiplication in GF(2^128) in GCM's bit order: bit 127 of the number is the coefficient of x^0. -/
def ghashMul (x y : Nat) : Nat :=
  ((List.range 128).foldl (fun (zv : Nat × Nat) i =>
    (if x.testBit (127 - i) then zv.1 ^^^ zv.2 else zv.1,
     if zv.2.testBit 0 then (zv.2 >>> 1) ^^^ (0xE1 <<< 120) else zv.2 >>> 1)) (0, y)).1

/-- Octets cut into 16-octet blocks, the last filled with zeros. -/
def blocks16 (x : Octets) : List Octets :=
  (List.range (ceilDiv x.length 16)).map (fun i => fitTo 16 0 (slice (16 * i) 16 x))

/-- GHASH over blocks. -/
def ghash (h : Nat) (bs : List Octets) : Nat := bs.foldl (fun y b => ghashMul (y ^^^ beNat b) h) 0

/-- The key stream of GCM from counter 2 on, for a 12-octet IV, applied to `x`. -/
def gcmCtr (key iv x : Octets) : Octets :=
  ((blocks16 x).zipIdx.flatMap (fun (b, i) => xorOctets b (aesEncrypt key (iv ++ beBytes 4 (i + 2))))).take x.length

/-- The GCM tag of a ciphertext and additional data. -/
def gcmTag (key iv aad ct : Octets) : Octets :=
  let h := beNat (aesEncrypt key (zeros 16))
  let s := ghash h (blocks16 aad ++ blocks16 ct ++ [beBytes 8 (8 * aad.length) ++ beBytes 8 (8 * ct.length)])
  xorOctets (beBytes 16 s) (aesEncrypt key (iv ++ beBytes 4 1))

/-- AES-256-GCM sealing: ciphertext and 16-octet tag (R328). -/
def gcmSeal (key iv aad pt : Octets) : Octets × Octets :=
  let ct := gcmCtr key iv pt
  (ct, gcmTag key iv aad ct)

/-- AES-256-GCM opening: the plaintext when the tag verifies. -/
def gcmOpen (key iv aad ct tag : Octets) : Option Octets :=
  if gcmTag key iv aad ct == tag then some (gcmCtr key iv ct) else none

/-! ### CMAC, KDF and key wrap -/

/-- Doubling in GF(2^128), the subkey step of CMAC. -/
def cmacDouble (v : Nat) : Nat :=
  let d := (2 * v) % 2 ^ 128
  if v.testBit 127 then d ^^^ 0x87 else d

/-- AES-256-CMAC (R349). -/
def cmac (key m : Octets) : Octets :=
  let k1 := cmacDouble (beNat (aesEncrypt key (zeros 16)))
  let k2 := cmacDouble k1
  let n := max 1 (ceilDiv m.length 16)
  let lastPart := slice (16 * (n - 1)) 16 m
  let lastBlk :=
    if lastPart.length == 16 then xorOctets lastPart (beBytes 16 k1)
    else xorOctets (fitTo 16 0 (lastPart ++ [0x80])) (beBytes 16 k2)
  let c := (List.range (n - 1)).foldl (fun c i => aesEncrypt key (xorOctets c (slice (16 * i) 16 m))) (zeros 16)
  aesEncrypt key (xorOctets c lastBlk)

/-- ASCII octets of a label (R349: without a terminator). -/
def ascii (s : String) : Octets := s.toList.map (fun c => BitVec.ofNat 8 c.toNat)

/-- The KDF in counter mode of R349; the answer is the first L bits, L a multiple of 8. -/
def kdf (key : Octets) (label : String) (context : Octets) (bits : Nat) : Octets :=
  ((List.range (ceilDiv bits 128)).flatMap (fun j =>
    cmac key (beBytes 4 (j + 1) ++ ascii label ++ [0x00] ++ context ++ beBytes 4 bits))).take (bits / 8)

/-- One wrapping step of KW: `t` counts from 1. -/
def kwStep (key : Octets) (st : Octets × List Octets) (t i : Nat) : Octets × List Octets :=
  let b := aesEncrypt key (st.1 ++ st.2.getD i [])
  (xorOctets (b.take 8) (beBytes 8 t), st.2.set i (b.drop 8))

/-- AES key wrap KW of SP 800-38F (R344, R346). -/
def kwWrap (key pt : Octets) : Octets :=
  let n := pt.length / 8
  let rs := (List.range n).map (fun i => slice (8 * i) 8 pt)
  let st := (List.range (6 * n)).foldl (fun st t => kwStep key st (t + 1) (t % n)) (List.replicate 8 0xA6, rs)
  st.1 ++ st.2.flatten

/-- One unwrapping step of KW. -/
def kwUnstep (key : Octets) (st : Octets × List Octets) (t i : Nat) : Octets × List Octets :=
  let b := aesDecrypt key (xorOctets st.1 (beBytes 8 t) ++ st.2.getD i [])
  (b.take 8, st.2.set i (b.drop 8))

/-- AES key unwrap; none when the integrity check fails (R344). -/
def kwUnwrap (key ct : Octets) : Option Octets :=
  let n := ct.length / 8 - 1
  let rs := (List.range n).map (fun i => slice (8 * (i + 1)) 8 ct)
  let st := (List.range (6 * n)).foldl (fun st k =>
    let t := 6 * n - k
    kwUnstep key st t ((t - 1) % n)) (ct.take 8, rs)
  if st.1 == List.replicate 8 0xA6 then some st.2.flatten else none

/-! ### CTR_DRBG (R353) -/

/-- The working state of the DRBG: key, V and the requests since the last seed. -/
structure DrbgState where
  /-- 32 octets. -/
  key : Octets
  /-- 16 octets. -/
  v : Octets
  /-- Generate requests since the seed, plus one. -/
  reseedCounter : Nat
  deriving DecidableEq, Repr, Inhabited

/-- V + 1 modulo 2^128. -/
def drbgIncr (v : Octets) : Octets := beBytes 16 ((beNat v + 1) % 2 ^ 128)

/-- `n` blocks of output from V on; the answer holds the last V. -/
def drbgBlocks (key : Octets) : Nat → Octets → Octets × Octets
  | 0, v => ([], v)
  | n + 1, v =>
    let v' := drbgIncr v
    let r := drbgBlocks key n v'
    (aesEncrypt key v' ++ r.1, r.2)

/-- CTR_DRBG_Update with 48 octets of provided data. -/
def drbgUpdate (provided : Octets) (d : DrbgState) : DrbgState :=
  let t := xorOctets ((drbgBlocks d.key 3 d.v).1) (fitTo 48 0 provided)
  ⟨t.take 32, t.drop 32, d.reseedCounter⟩

/-- BCC of the derivation function: chaining over 16-octet blocks. -/
def drbgBcc (key data : Octets) : Octets :=
  (blocks16 data).foldl (fun c b => aesEncrypt key (xorOctets c b)) (zeros 16)

/-- Block_Cipher_df to 48 octets. -/
def drbgDf (input : Octets) : Octets :=
  let s := beBytes 4 input.length ++ beBytes 4 48 ++ input ++ [0x80]
  let k := (List.range 32).map (fun i => BitVec.ofNat 8 i)
  let t := (List.range 3).flatMap (fun i => drbgBcc k (beBytes 4 i ++ zeros 12 ++ s))
  let k' := t.take 32
  let x := t.drop 32
  let b1 := aesEncrypt k' x
  let b2 := aesEncrypt k' b1
  b1 ++ b2 ++ aesEncrypt k' b2

/-- Instantiation from entropy and the personalisation string (R353: the device unique identifier). -/
def drbgInstantiate (entropy pers : Octets) : DrbgState :=
  let d := drbgUpdate (drbgDf (entropy ++ pers)) ⟨zeros 32, zeros 16, 1⟩
  (⟨d.key, d.v, 1⟩ : DrbgState)

/-- Reseeding. -/
def drbgReseed (entropy : Octets) (d : DrbgState) : DrbgState :=
  let e := drbgUpdate (drbgDf entropy) d
  (⟨e.key, e.v, 1⟩ : DrbgState)

/-- One generate request of `n` octets (R353: at most 64). -/
def drbgGenerate (n : Nat) (d : DrbgState) : Octets × DrbgState :=
  let r := drbgBlocks d.key (ceilDiv n 16) d.v
  let e := drbgUpdate (zeros 48) ⟨d.key, r.2, d.reseedCounter⟩
  (r.1.take n, ⟨e.key, e.v, d.reseedCounter + 1⟩)

/-! ### P-384 -/

/-- The field prime of P-384. -/
def p384P : Nat := 2 ^ 384 - 2 ^ 128 - 2 ^ 96 + 2 ^ 32 - 1

/-- The group order of P-384. -/
def p384N : Nat := 0xFFFFFFFFFFFFFFFFFFFFFFFFFFFFFFFFFFFFFFFFFFFFFFFFC7634D81F4372DDF581A0DB248B0A77AECEC196ACCC52973

/-- The curve coefficient b. -/
def p384B : Nat := 0xB3312FA7E23EE7E4988E056BE3F82D19181D9C6EFE8141120314088F5013875AC656398D8A2ED19D2A85C8EDD3EC2AEF

/-- A point of the curve; none is the point at infinity. -/
abbrev P384Point := Option (Nat × Nat)

/-- The base point. -/
def p384G : P384Point :=
  some (0xAA87CA22BE8B05378EB1C71EF320AD746E1D3B628BA79B9859F741E082542A385502F25DBF55296C3A545E3872760AB7,
        0x3617DE4A96262C6F5D9E98BF9292DC29F8F41DBD289A147CE9DA3113B5F0B8C00A60B1CE1D7E819D7A431D7C90EA0E5F)

/-- base^e mod m, `fuel` bits of e from bit 0. -/
def powMod (m : Nat) : Nat → Nat → Nat → Nat
  | 0, _, _ => 1 % m
  | fuel + 1, b, e =>
    let r := powMod m fuel (b * b % m) (e / 2)
    if e % 2 == 1 then b * r % m else r

/-- The inverse modulo a prime. -/
def invMod (m a : Nat) : Nat := powMod m 384 (a % m) (m - 2)

/-- a − b modulo m. -/
def subMod (m a b : Nat) : Nat := (a + m - b % m) % m

/-- The point lies on the curve. -/
def p384OnCurve (x y : Nat) : Bool :=
  decide (x < p384P) && decide (y < p384P) &&
  (y * y) % p384P == subMod p384P (x * x * x + p384B) (3 * x)

/-- Point addition. -/
def p384Add (a b : P384Point) : P384Point :=
  match a, b with
  | none, q => q
  | q, none => q
  | some (x1, y1), some (x2, y2) =>
    if x1 == x2 && (y1 + y2) % p384P == 0 then none
    else
      let lam :=
        if x1 == x2 then (3 * x1 * x1 + p384P - 3) * invMod p384P (2 * y1) % p384P
        else subMod p384P y2 y1 * invMod p384P (subMod p384P x2 x1) % p384P
      let x3 := subMod p384P (subMod p384P (lam * lam) x1) x2
      some (x3, subMod p384P (lam * subMod p384P x1 x3) y1)

/-- A point in Jacobian coordinates: (X, Y, Z) stands for (X / Z², Y / Z³), and Z = 0 for the point at infinity. -/
abbrev P384Jac := Nat × Nat × Nat

/-- Twice a point. -/
def jacDouble (a : P384Jac) : P384Jac :=
  let (x, y, z) := a
  let d := z * z % p384P
  let g := y * y % p384P
  let b := x * g % p384P
  let al := 3 * (subMod p384P x d) * (x + d) % p384P
  let x3 := subMod p384P (al * al) (8 * b)
  (x3, subMod p384P (al * subMod p384P (4 * b) x3) (8 * g * g), 2 * y * z % p384P)

/-- The sum of two points. -/
def jacAdd (a b : P384Jac) : P384Jac :=
  let (x1, y1, z1) := a
  let (x2, y2, z2) := b
  if z1 == 0 then b
  else if z2 == 0 then a
  else
    let s1 := z1 * z1 % p384P
    let s2 := z2 * z2 % p384P
    let u1 := x1 * s2 % p384P
    let h := subMod p384P (x2 * s1) u1
    let v1 := y1 * z2 % p384P * s2 % p384P
    let r := subMod p384P (y2 * z1 % p384P * s1) v1
    if h == 0 then (if r == 0 then jacDouble a else (1, 1, 0))
    else
      let h2 := h * h % p384P
      let h3 := h * h2 % p384P
      let w := u1 * h2 % p384P
      let x3 := subMod p384P (r * r) (h3 + 2 * w)
      (x3, subMod p384P (r * subMod p384P w x3) (v1 * h3), h * z1 % p384P * z2 % p384P)

/-- The affine point that Jacobian coordinates stand for. -/
def jacPoint (a : P384Jac) : P384Point :=
  let (x, y, z) := a
  if z == 0 then none
  else
    let i := invMod p384P z
    let i2 := i * i % p384P
    some (x * i2 % p384P, y * i2 % p384P * i % p384P)

/-- Scalar multiplication, `fuel` bits of the scalar. -/
def p384MulBits : Nat → Nat → P384Jac → P384Jac
  | 0, _, _ => (1, 1, 0)
  | fuel + 1, k, q =>
    let r := p384MulBits fuel (k / 2) (jacDouble q)
    if k % 2 == 1 then jacAdd q r else r

/-- Scalar multiplication. -/
def p384Mul (k : Nat) (q : P384Point) : P384Point :=
  match q with
  | none => none
  | some (x, y) => jacPoint (p384MulBits 384 k (x, y, 1))

/-- An uncompressed point 0x04, X, Y of 97 octets, when it lies on the curve (R68, R345). -/
def p384Decode (x : Octets) : P384Point :=
  let px := beAt 1 48 x
  let py := beAt 49 48 x
  if x.length == 97 && octetAt 0 x == 4 && p384OnCurve px py then some (px, py) else none

/-- X then Y of a point, 96 octets; zeros for the point at infinity. -/
def p384Coords (q : P384Point) : Octets :=
  match q with
  | none => zeros 96
  | some (x, y) => beBytes 48 x ++ beBytes 48 y

/-- The uncompressed encoding of a point. -/
def p384Encode (q : P384Point) : Octets := [0x04] ++ p384Coords q

/-- ECDSA P-384 verification of a 48-octet digest; the signature is r then s (R68, R78). -/
def ecdsaVerifyDigest (pub digest sig : Octets) : Bool :=
  let r := beAt 0 48 sig
  let s := beAt 48 48 sig
  match p384Decode pub with
  | none => false
  | some q =>
    if r == 0 || s == 0 || decide (p384N ≤ r) || decide (p384N ≤ s) || sig.length != 96 then false
    else
      let w := invMod p384N s
      let u1 := beNat digest * w % p384N
      let u2 := r * w % p384N
      match p384Add (p384Mul u1 p384G) (p384Mul u2 (some q)) with
      | none => false
      | some (x, _) => x % p384N == r

/-- ECDSA P-384 over SHA-384 (R36). -/
def ecdsaVerify (pub msg sig : Octets) : Bool := ecdsaVerifyDigest pub (sha384 msg) sig

/-- An ECDSA P-384 signature over SHA-384 with private scalar d and nonce k (R420). -/
def ecdsaSign (d k : Nat) (msg : Octets) : Octets :=
  match p384Mul k p384G with
  | none => zeros 96
  | some (x, _) =>
    let r := x % p384N
    let s := invMod p384N k * (beNat (sha384 msg) + r * d) % p384N
    beBytes 48 r ++ beBytes 48 s

/-- The x-coordinate of the ECC CDH primitive, 48 octets; none at infinity (R345, R420). -/
def ecdhX (d : Nat) (q : P384Point) : Option Octets := (p384Mul d q).map (fun c => beBytes 48 c.1)

/-- The private scalar of slots 1 and 6: (K mod (n − 1)) + 1 (R350). -/
def scalarOfKey (k : Octets) : Nat := beNat k % (p384N - 1) + 1

end Sys2Proof.Machine
end

