-- ==== Sys2Proof/Config.lean ====
section
/-! DEFINITION. What the spec fixes per device or leaves open: fuse contents of one device, and free values.
Every constant here is opaque: no proof can see a value of it (log entries 2 and 3). -/

namespace Sys2Proof.Config

/-- The device unique identifier in the ID block's fuses (R444), as State.fixed holds it. DESIGN CHOICE: a constant without a value. -/
opaque uid : BitVec 64

/-- The device root key, 256 bits in fuses, read by the key store controller alone (R350), as State.fixed holds it. -/
opaque rootKey : BitVec 256

/-- SHA-384 hash of the vendor key, in the boot ROM (R36, R99 step 9), as State.fixed holds it. -/
opaque vendorKeyHash : BitVec 384

/-- The fuses' latency between the reference plane and the capture circuit of a switch port, in half ns: 2n on receive and 2n + 1 on
transmit for port n (R371); no rule gives a value. State.fixed holds them. -/
opaque portLatency : Nat → Int

/-- The value that the JTAG IDCODE instruction selects (R71); no rule gives it. -/
opaque jtagIdcode : BitVec 32

/-- Number of cells of the boundary-scan register of IEEE 1149.1 (R71); no rule gives it. -/
opaque boundaryCells : Nat

/-- The n-th free value: where the spec leaves a value undefined and the device goes on, the model takes
freeValue n for the next n of State.freeCtr (log entry 3). -/
opaque freeValue : Nat → BitVec 64

/-- The n-th free octet string: undefined memory contents (R162, R202, R207, R234, R243), octet by octet. -/
opaque freeOctet : Nat → Byte

/-- The n-th free scalar of P-384: the ECDSA nonce and the ephemeral scalar of R420, which no rule derives. -/
opaque freeScalar : Nat → BitVec 384

/-- The n-th session ID that the device chooses (R420); no rule gives the choice. -/
opaque sessionId : Nat → BitVec 32

/-- Samples that the Snare sample queue holds (R413: it can be full); no rule gives its depth. -/
opaque snareDepth : Nat

/-- Snare's k of line port m (R63: N = 2^k; the PORT record that sets k names local ports alone); 0 for no sampling. -/
opaque snareLine : Nat → Nat

end Sys2Proof.Config
end

