-- ==== Sys2Proof/Machine/Flags.lean ====
section
/-! DEFINITION. The exception flags of strict mode (R176, R177) and how each rounding raises them. -/

namespace Sys2Proof.Machine

/-- The four flags of strict mode, each raised at most once by a peal or an invocation (R177). -/
structure FpFlags where
  invalid : Bool
  overflow : Bool
  underflow : Bool
  inexact : Bool
  deriving DecidableEq, Repr, Inhabited

/-- No flag. -/
def FpFlags.none : FpFlags := ⟨false, false, false, false⟩

/-- The flags of either. -/
def FpFlags.or (a b : FpFlags) : FpFlags :=
  ⟨a.invalid || b.invalid, a.overflow || b.overflow, a.underflow || b.underflow, a.inexact || b.inexact⟩

/-- Flag f in the order of COUNTER_READ set 0x06: 0 invalid, 1 overflow, 2 underflow, 3 inexact (R435). -/
def FpFlags.bit (a : FpFlags) : Nat → Bool
  | 0 => a.invalid
  | 1 => a.overflow
  | 2 => a.underflow
  | 3 => a.inexact
  | _ => false

/-- Strict mode counts the flags of an operation; fast mode counts none (R176). -/
def FpFlags.inMode (strict : Bool) (a : FpFlags) : FpFlags := if strict then a else .none

/-- The flags of a rounding whose exact value changed: overflow implies inexact, and underflow is signalled only when the
result is tiny after rounding and also inexact (R176). -/
def roundingFlags (changed overflowed tiny : Bool) : FpFlags :=
  ⟨false, overflowed, tiny && changed, changed || overflowed⟩

end Sys2Proof.Machine
end

