-- ==== Sys2Proof/Machine/Float.lean ====
section
/-! DEFINITION. Number formats, the single rounding rule, the modes and the traps (R172 to R176, R190). Values are exact
dyadic numbers; every operation computes exactly and then rounds once. -/

namespace Sys2Proof.Machine

/-- An exact value: a NaN, an infinity, or (−1)^neg × m × 2^e. -/
inductive Num where
  | nan
  | inf (neg : Bool)
  | fin (neg : Bool) (m : Nat) (e : Int)
  deriving DecidableEq, Repr, Inhabited

/-- Plus zero. -/
def Num.zero : Num := .fin false 0 0

/-- An integer as a value. -/
def Num.ofInt (i : Int) : Num := .fin (decide (i < 0)) i.natAbs 0

/-- The value is a NaN. -/
def Num.isNan : Num → Bool
  | .nan => true
  | _ => false

/-- The value is an infinity. -/
def Num.isInf : Num → Bool
  | .inf _ => true
  | _ => false

end Sys2Proof.Machine

namespace Sys2Proof

/-- Octets of an element (R203). -/
def Fmt.size : Fmt → Nat
  | .fp32 | .int32 | .uint32 => 4
  | .bf16 | .fp16 => 2
  | .e4m3 | .e5m2 | .int8 | .uint8 => 1

/-- An integer format. -/
def Fmt.isInt : Fmt → Bool
  | .int8 | .int32 | .uint32 | .uint8 => true
  | _ => false

/-- Exponent width of a floating-point format (R172). -/
def Fmt.expBits : Fmt → Nat
  | .fp32 | .bf16 => 8
  | .fp16 | .e5m2 => 5
  | .e4m3 => 4
  | _ => 0

/-- Significand width m of a floating-point format (R172). -/
def Fmt.sigBits : Fmt → Nat
  | .fp32 => 23
  | .bf16 => 7
  | .fp16 => 10
  | .e4m3 => 3
  | .e5m2 => 2
  | _ => 0

/-- Exponent bias (R172). -/
def Fmt.bias (f : Fmt) : Nat := 2 ^ (f.expBits - 1) - 1

/-- Exponent of the smallest normal number (R172). -/
def Fmt.emin (f : Fmt) : Int := 1 - (f.bias : Int)

/-- The bit pattern of the largest finite magnitude (R172). -/
def Fmt.maxPattern : Fmt → Nat
  | .fp32 => 0x7F7FFFFF
  | .bf16 => 0x7F7F
  | .fp16 => 0x7BFF
  | .e4m3 => 0x7E
  | .e5m2 => 0x7B
  | _ => 0

/-- The canonical NaN of a format; 0 for the integer formats (R173, R190). -/
def Fmt.canonicalNan : Fmt → Nat
  | .fp32 => 0x7FC00000
  | .bf16 => 0x7FC0
  | .fp16 => 0x7E00
  | .e4m3 => 0x7F
  | .e5m2 => 0x7E
  | _ => 0

/-- Least value of an integer format (R172, R203). -/
def Fmt.intMin : Fmt → Int
  | .int8 => -128
  | .int32 => -2147483648
  | _ => 0

/-- Greatest value of an integer format. -/
def Fmt.intMax : Fmt → Int
  | .int8 => 127
  | .int32 => 2147483647
  | .uint32 => 4294967295
  | .uint8 => 255
  | _ => 0

/-- The format of a code of R150 and R203. -/
def fmtOfCode : Nat → Option Fmt
  | 1 => some .fp32
  | 2 => some .bf16
  | 3 => some .fp16
  | 4 => some .e4m3
  | 5 => some .e5m2
  | 6 => some .int8
  | 7 => some .int32
  | 8 => some .uint32
  | 9 => some .uint8
  | _ => none

/-- The code of a format. -/
def Fmt.code : Fmt → Nat
  | .fp32 => 1
  | .bf16 => 2
  | .fp16 => 3
  | .e4m3 => 4
  | .e5m2 => 5
  | .int8 => 6
  | .int32 => 7
  | .uint32 => 8
  | .uint8 => 9

end Sys2Proof

namespace Sys2Proof.Machine

/-- The integer that a pattern of an integer format holds. -/
def fmtToInt (f : Fmt) (v : Nat) : Int :=
  match f with
  | .int8 => signedOf 8 v
  | .int32 => signedOf 32 v
  | .uint8 => ((v % 2 ^ 8 : Nat) : Int)
  | _ => ((v % 2 ^ 32 : Nat) : Int)

/-- The pattern of an integer in a format, saturated to its range (R175). -/
def fmtOfIntSat (f : Fmt) (i : Int) : Nat :=
  unsignedOf (8 * f.size) (max f.intMin (min f.intMax i))

/-- Whether an integer lies outside a format's range (R187, R189). -/
def fmtOutOfRange (f : Fmt) (i : Int) : Bool := decide (i < f.intMin) || decide (f.intMax < i)

/-- The exact value of a pattern (R172). -/
def decodeNum (f : Fmt) (v : Nat) : Num :=
  if f.isInt then Num.ofInt (fmtToInt f v)
  else
    let neg := v.testBit (f.expBits + f.sigBits)
    let e := (v >>> f.sigBits) % 2 ^ f.expBits
    let s := v % 2 ^ f.sigBits
    let top := 2 ^ f.expBits - 1
    if f == .e4m3 then
      if e == top && s == 7 then .nan
      else if e == 0 then .fin neg s (f.emin - f.sigBits)
      else .fin neg (s + 2 ^ f.sigBits) ((e : Int) - f.bias - f.sigBits)
    else if e == top then (if s == 0 then .inf neg else .nan)
    else if e == 0 then .fin neg s (f.emin - f.sigBits)
    else .fin neg (s + 2 ^ f.sigBits) ((e : Int) - f.bias - f.sigBits)

/-- A pattern is a subnormal number of its floating-point format. -/
def isSubnormal (f : Fmt) (v : Nat) : Bool :=
  !f.isInt && (v >>> f.sigBits) % 2 ^ f.expBits == 0 && v % 2 ^ f.sigBits != 0

/-- The value of an operand in a mode: fast mode replaces a subnormal by the zero of its sign (R176). -/
def operandNum (strict : Bool) (f : Fmt) (v : Nat) : Num :=
  if !strict && isSubnormal f v then .fin (v.testBit (f.expBits + f.sigBits)) 0 0 else decodeNum f v

/-- m × 2^(e − q) rounded to an integer, ties to even. -/
def rneAt (m : Nat) (e q : Int) : Nat :=
  if q ≤ e then m * 2 ^ (e - q).toNat
  else (rneDiv (m : Int) (2 ^ (q - e).toNat)).toNat

/-- m × 2^(e − q) is an integer. -/
def exactAt (m : Nat) (e q : Int) : Bool :=
  decide (q ≤ e) || m % 2 ^ (q - e).toNat == 0

/-- floor(log2) of a non-zero magnitude. -/
def log2Of (m : Nat) (e : Int) : Int := (Nat.log2 m : Int) + e

/-- The magnitude pattern n × 2^q of a format, n < 2^(sigBits + 2): no range check. -/
def packMag (f : Fmt) (n : Nat) (q : Int) : Nat :=
  let hid := 2 ^ f.sigBits
  if n < hid then n
  else
    let n' := if n ≥ 2 * hid then n / 2 else n
    let q' := if n ≥ 2 * hid then q + 1 else q
    ((q' + f.sigBits + f.bias).toNat) * hid + (n' - hid)

/-- Pattern with its sign bit. -/
def withSign (f : Fmt) (neg : Bool) (mag : Nat) : Nat :=
  (if neg then 2 ^ (f.expBits + f.sigBits) else 0) + mag

/-- The infinity of a format, or the largest finite value of E4M3 (R175). -/
def infPattern (f : Fmt) (neg : Bool) : Nat :=
  withSign f neg (if f == .e4m3 then f.maxPattern else (2 ^ f.expBits - 1) * 2 ^ f.sigBits)

/-- Rounding of a finite value to a floating-point format in a mode, with its flags; `above` tells that the magnitude
rounded above the largest finite value (R175, R176, R184). -/
structure Rounded where
  bits : Nat
  flags : FpFlags
  above : Bool
  deriving DecidableEq, Repr

/-- `round_to` for a finite value and a floating-point format. -/
def roundFin (f : Fmt) (strict : Bool) (neg : Bool) (m : Nat) (e : Int) : Rounded :=
  if m == 0 then ⟨withSign f neg 0, .none, false⟩
  else
    let l := log2Of m e
    if !strict && decide (l < f.emin) then ⟨withSign f neg 0, .none, false⟩
    else
      let qn := l - f.sigBits
      let q := max qn (f.emin - f.sigBits)
      let n := rneAt m e q
      let mag := packMag f n q
      let tiny := decide (log2Of (rneAt m e qn) qn < f.emin)
      if decide (f.maxPattern < mag) then
        ⟨infPattern f neg, (roundingFlags true true false).inMode strict, true⟩
      else ⟨withSign f neg mag, (roundingFlags (!exactAt m e q) false tiny).inMode strict, false⟩

/-- Rounding of a finite value to an integer, ties to even. -/
def roundInt (neg : Bool) (m : Nat) (e : Int) : Int :=
  let n := (rneAt m e 0 : Int)
  if neg then -n else n

/-- `round_to(format, value)` of any value (R173, R175): NaN to the canonical NaN or 0, an infinity to the infinity, to
±448, or to the nearest end of an integer range. -/
def roundNum (f : Fmt) (strict : Bool) (x : Num) : Rounded :=
  match x with
  | .nan => ⟨f.canonicalNan, .none, false⟩
  | .inf neg =>
    if f.isInt then ⟨unsignedOf (8 * f.size) (if neg then f.intMin else f.intMax), .none, true⟩
    else if f == .e4m3 then ⟨infPattern f neg, (roundingFlags true true false).inMode strict, true⟩
    else ⟨infPattern f neg, .none, false⟩
  | .fin neg m e =>
    if f.isInt then
      let i := roundInt neg m e
      ⟨fmtOfIntSat f i, (roundingFlags (!exactAt m e 0) false false).inMode strict, fmtOutOfRange f i⟩
    else roundFin f strict neg m e

/-- The value that a rounding to FP32 gives. -/
def roundFp32 (strict : Bool) (x : Num) : Num × FpFlags :=
  match x with
  | .fin neg m e =>
    let r := roundFin .fp32 strict neg m e
    (decodeNum .fp32 r.bits, r.flags)
  | y => (y, .none)

/-- A value in fast mode with FP32 subnormals flushed; strict mode keeps it (R176). -/
def flushFp32 (strict : Bool) (x : Num) : Num :=
  match x with
  | .fin neg m e => if !strict && m != 0 && decide (log2Of m e < Fmt.fp32.emin) then .fin neg 0 0 else x
  | y => y

/-- The exact sum of two finite values, and whether both addends were zeros of minus sign. -/
def addFin (n1 : Bool) (m1 : Nat) (e1 : Int) (n2 : Bool) (m2 : Nat) (e2 : Int) : Num :=
  let q := min e1 e2
  let a : Int := m1 * 2 ^ (e1 - q).toNat
  let b : Int := m2 * 2 ^ (e2 - q).toNat
  let s := (if n1 then -a else a) + (if n2 then -b else b)
  .fin (decide (s < 0)) s.natAbs q

/-- The exact sum of two values: (sum, invalid). The sign of an exact zero sum is that of R176: +0, but −0 in strict mode
when both addends are −0. -/
def addNum (strict : Bool) (a b : Num) : Num × Bool :=
  match a, b with
  | .nan, _ => (.nan, false)
  | _, .nan => (.nan, false)
  | .inf x, .inf y => if x == y then (.inf x, false) else (.nan, true)
  | .inf x, _ => (.inf x, false)
  | _, .inf y => (.inf y, false)
  | .fin n1 m1 e1, .fin n2 m2 e2 =>
    match addFin n1 m1 e1 n2 m2 e2 with
    | .fin _ 0 e => (.fin (strict && n1 && n2 && m1 == 0 && m2 == 0) 0 e, false)
    | r => (r, false)

/-- The exact product of two values: (product, invalid). -/
def mulNum (a b : Num) : Num × Bool :=
  match a, b with
  | .nan, _ => (.nan, false)
  | _, .nan => (.nan, false)
  | .inf x, .inf y => (.inf (x != y), false)
  | .inf x, .fin n m _ => if m == 0 then (.nan, true) else (.inf (x != n), false)
  | .fin n m _, .inf y => if m == 0 then (.nan, true) else (.inf (n != y), false)
  | .fin n1 m1 e1, .fin n2 m2 e2 => (.fin (n1 != n2) (m1 * m2) (e1 + e2), false)

/-- The result of an FP32 operation: value, flags and the cause code of a trap (R190). -/
structure FpRes where
  val : Num
  flags : FpFlags
  trap : Option Nat
  deriving DecidableEq, Repr, Inhabited

/-- Invalid operations trap with cause 0x03 and, in strict mode, raise the invalid flag (R176, R190). -/
def invalidRes (strict : Bool) : FpRes :=
  ⟨.nan, FpFlags.inMode strict ⟨true, false, false, false⟩, some 3⟩

/-- Rounds an exact value to FP32 as an operation's result. -/
def fpResult (strict : Bool) (x : Num × Bool) : FpRes :=
  if x.2 then invalidRes strict
  else
    let r := roundFp32 strict x.1
    ⟨r.1, r.2, none⟩

/-- fp32_add of R178 in a mode. -/
def fp32Add (strict : Bool) (a b : Num) : FpRes :=
  fpResult strict (addNum strict (flushFp32 strict a) (flushFp32 strict b))

/-- fp32_mul of R210 in a mode. -/
def fp32Mul (strict : Bool) (a b : Num) : FpRes :=
  fpResult strict (mulNum (flushFp32 strict a) (flushFp32 strict b))

/-- The negation of a value. -/
def Num.neg : Num → Num
  | .nan => .nan
  | .inf n => .inf (!n)
  | .fin n m e => .fin (!n) m e

/-- The magnitude of a value. -/
def Num.abs : Num → Num
  | .nan => .nan
  | .inf _ => .inf false
  | .fin _ m e => .fin false m e

/-- Strict order of two values that are no NaN; the zeros are equal. -/
def Num.lt (a b : Num) : Bool :=
  match a, b with
  | .inf true, .inf true => false
  | .inf true, .nan => false
  | .inf true, _ => true
  | .inf false, _ => false
  | .fin .., .inf n => !n
  | .fin n1 m1 e1, .fin n2 m2 e2 =>
    let q := min e1 e2
    let x : Int := m1 * 2 ^ (e1 - q).toNat
    let y : Int := m2 * 2 ^ (e2 - q).toNat
    decide ((if n1 then -x else x) < (if n2 then -y else y))
  | _, _ => false

/-- The value is a zero of minus sign. -/
def Num.isNegZero : Num → Bool
  | .fin true 0 _ => true
  | _ => false

/-- The value is a zero. -/
def Num.isZero : Num → Bool
  | .fin _ 0 _ => true
  | _ => false

/-- One element of a little-endian octet string (R151, R197). -/
def elemAt (f : Fmt) (i : Nat) (x : Octets) : Nat := leAt (f.size * i) f.size x

/-- The elements of an octet string. -/
def elemsOf (f : Fmt) (n : Nat) (x : Octets) : List Nat := (List.range n).map (fun i => elemAt f i x)

/-- Elements as little-endian octets. -/
def elemBytes (f : Fmt) (vs : List Nat) : Octets := vs.flatMap (leBytes f.size)

end Sys2Proof.Machine
end

