-- ==== Sys2Proof/Machine/Records.lean ====
section
/-! DEFINITION. The plain data that State holds: Slate records (03), partitions (02), items and queues (09, 10),
descriptors and node operations (04), and the data of every other unit, chapter by chapter. -/

namespace Sys2Proof.Machine

/-! ### Slate records (R83 to R95) -/

/-- PARTITION record (R83). -/
structure PartRec where
  part : Nat
  isolated : Bool
  haltOnNan : Bool
  tenantPrograms : Bool
  clusterMask : Nat
  lineMask : Nat
  /-- Adder weight per slice. -/
  weights : List Nat
  keyFirst : Nat
  keyCount : Nat
  syncFirst : Nat
  syncCount : Nat
  groupFirst : Nat
  groupCount : Nat
  streamFirst : Nat
  streamCount : Nat
  /-- Stream-context cache share on L0, then L1. -/
  cache : List Nat
  /-- DMA channel mask per slice. -/
  dma : List Nat
  progKeyHash : Octets
  /-- (local port, VLAN ID) pairs, in the order of the record. -/
  pairs : List (Nat × Nat)
  deriving DecidableEq, Repr, Inhabited

/-- PORT record (R85). -/
structure PortRec where
  port : Nat
  enabled : Bool
  ptp : Bool
  /-- Snare k; 0 for no sampling. -/
  snare : Nat
  /-- Fibre asymmetry in ps. -/
  asym : Int
  /-- Receive grant in units of 256 octets. -/
  grant : Nat
  deriving DecidableEq, Repr, Inhabited

/-- LINE record (R85). -/
structure LineRec where
  port : Nat
  enabled : Bool
  traceStops : Bool
  site : Nat
  expected : Octets
  transmitted : Octets
  keySlot : Nat
  /-- Retransmission reserve in MiB. -/
  reserve : Nat
  deriving DecidableEq, Repr, Inhabited

/-- SEGMENT record, a segment window (R45, R85). `kind` is 1 GLOBAL, 2 SCRATCH, 3 BASALT. -/
structure Window where
  part : Nat
  index : Nat
  kind : Nat
  r : Bool
  w : Bool
  a : Bool
  i : Bool
  cluster : Nat
  base : Nat
  limit : Nat
  deriving DecidableEq, Repr, Inhabited

/-- KEYBLOB record (R88). -/
structure KeyBlobRec where
  slot : Nat
  pos : Nat
  usage : Nat
  /-- Usage limit; 2^32 where the record holds 0. -/
  limit : Nat
  part : Nat
  wrapped : Octets
  deriving DecidableEq, Repr, Inhabited

/-- GROUP record (R88). -/
structure GroupRec where
  part : Nat
  group : GroupDef
  deriving DecidableEq, Repr, Inhabited

/-- PROGRAM record (R91). -/
structure ProgRec where
  part : Nat
  index : Nat
  clusters : Nat
  cores : Nat
  entry : Nat
  watchdog : Nat
  text : Octets
  data : Octets
  deriving DecidableEq, Repr, Inhabited

/-- SHAPER record (R91). -/
structure ShaperRec where
  port : Nat
  cls : Nat
  withOverhead : Bool
  startFull : Bool
  overhead : Nat
  rate : Nat
  depth : Nat
  deriving DecidableEq, Repr, Inhabited

/-- An entry of a GATE record (R91); `owner` 0xFF is shared. -/
structure GateEntry where
  mask : Nat
  owner : Nat
  interval : Nat
  deriving DecidableEq, Repr, Inhabited

/-- GATE record (R91). -/
structure GateRec where
  port : Nat
  cycle : Nat
  baseSecs : Nat
  baseNs : Nat
  entries : List GateEntry
  deriving DecidableEq, Repr, Inhabited

/-- TIME record (R93). -/
structure TimeRec where
  trim : Int
  ppsOut : Bool
  ppsIn : Bool
  cableDelay : Int
  ppsOffset : Nat
  deriving DecidableEq, Repr, Inhabited

/-- POWER record (R93); `deepest` is 0 A0, 1 A1, 2 A2, 3 A3, 4 Watch. -/
structure PowerRec where
  deepest : Nat
  standby : Bool
  margin : Nat
  wakeTemp : Int
  /-- Maintenance windows: start in Quartz seconds, duration in s. -/
  windows : List (Nat × Nat)
  deriving DecidableEq, Repr, Inhabited

/-- SPARE_POLICY record (R93): margin threshold in 0.1 dB, root PLL choice, spare warning level. -/
structure SpareRec where
  margin : Nat
  pll : Nat
  warning : Nat
  deriving DecidableEq, Repr, Inhabited

/-- LIMITS record (R93). -/
structure LimitsRec where
  part : Nat
  k : Int
  /-- Plane pool shares, 4 per plane. -/
  planeShares : List Nat
  /-- Basalt pool shares, 3 per line die. -/
  lineShares : List Nat
  /-- (switch port, class, limit in octets). -/
  limits : List (Nat × Nat × Nat)
  deriving DecidableEq, Repr, Inhabited

/-- FIRMWARE record (R95), less the code itself: what the checks of R99 need and what runs. -/
structure FwRec where
  version : Nat
  vendorKey : Octets
  codeHash : Octets
  signature : Octets
  /-- Record octets 0 to 163, which the signature covers. -/
  signed : Octets
  code : Octets
  deriving DecidableEq, Repr, Inhabited

/-- The records of an image or of the running configuration, by type (R81). -/
structure Conf where
  parts : List PartRec
  ports : List PortRec
  lines : List LineRec
  windows : List Window
  blobs : List KeyBlobRec
  groups : List GroupRec
  progs : List ProgRec
  shapers : List ShaperRec
  gates : List GateRec
  time : Option TimeRec
  power : Option PowerRec
  spare : Option SpareRec
  limits : List LimitsRec
  fw : Option FwRec
  deriving DecidableEq, Repr, Inhabited

/-- No record at all: nothing configured (R82). -/
def Conf.empty : Conf :=
  ⟨[], [], [], [], [], [], [], [], [], none, none, none, [], none⟩

/-- One directory entry of a container (R79). -/
structure DirEntry where
  type : Nat
  inst : Nat
  offset : Nat
  length : Nat
  deriving DecidableEq, Repr, Inhabited

/-! ### Statuses -/

/-- The code of a status (R128). -/
def statusCode : Status → Nat
  | .ok => 0 | .pending => 1 | .timeout => 2 | .memberMissing => 3 | .poisonedNan => 4 | .keyErased => 5
  | .keyExhausted => 6 | .entropyFail => 7 | .segmentFault => 8 | .quota => 9 | .streamFailed => 10 | .overflow => 11
  | .partitionReload => 12 | .badDescriptor => 13 | .notPermitted => 14 | .hangRestart => 15

/-- The status of a code; none for the reserved codes 0x10 to 0xFF (R128). -/
def statusOfCode : Nat → Option Status
  | 0 => some .ok | 1 => some .pending | 2 => some .timeout | 3 => some .memberMissing | 4 => some .poisonedNan
  | 5 => some .keyErased | 6 => some .keyExhausted | 7 => some .entropyFail | 8 => some .segmentFault | 9 => some .quota
  | 10 => some .streamFailed | 11 => some .overflow | 12 => some .partitionReload | 13 => some .badDescriptor
  | 14 => some .notPermitted | 15 => some .hangRestart
  | _ => none

/-! ### Counters (R433 to R436, R447, R450, R454, R455) -/

/-- Every counter of the device, by what it is kept per. The step number, the next invocation number and the trap
sequence of set 0x05 stand in PartState. -/
inductive Ctr where
  /-- Set 0x01: f is 0 TX_OCTETS, 1 TX_ITEMS. -/
  | outCls (p out cls f : Nat)
  /-- Set 0x02, f from 0 to 7. -/
  | outPort (p out f : Nat)
  /-- Set 0x03, f from 0 to 5. -/
  | line (p m f : Nat)
  /-- Set 0x04: f is 0 SW_WAITED, 1 XPORT_RX_NOBUF. -/
  | die (p d f : Nat)
  /-- Set 0x05, index 3 to 14. -/
  | part (p i : Nat)
  /-- Set 0x06: strict flag f of a group. -/
  | groupFlag (p group f : Nat)
  /-- Set 0x06: strict flag f of a program index. -/
  | progFlag (p index f : Nat)
  /-- The trap count of R192. -/
  | trapCount (p : Nat)
  /-- Receive drops of a local port, in the order of R454. -/
  | rx (port i : Nat)
  | holdNs (port : Nat)
  | creditNs (port : Nat)
  | guardNs (out : Nat)
  | shaperNs (out cls : Nat)
  | bufQuarantined (d pool : Nat)
  | adderCycles (slice : Nat)
  | entRct
  | entApt
  | cipherIsoShort (m : Nat)
  | bulkDiscard (ld : Nat)
  /-- Line page: 0 FEC_CORR_SYM, 1 FEC_UNCORR_CW, 2 FAS_ERR, 3 BIP_VIOL, 4 LINE_DISCARD, 5 LINE_PT_BAD, 6 OH_AUTH_FAIL,
  7 and 8 MCH_SLIP, 9 XPORT_BAD_HDR, 10 ACK_BAD. -/
  | page (m i : Nat)
  | ppsEdges
  | ppsHoldover
  | snareDrop
  | tocsinDrop (n : Nat)
  | eccCorr (d : Nat)
  | eccUncorr (d : Nat)
  deriving DecidableEq, Repr, Inhabited

/-! ### Events (R437 to R440, R478) -/

/-- A ring entry less its sequence (R437). -/
structure EvEntry where
  code : Nat
  critical : Bool
  part : Option Nat
  secs : Nat
  ns : Nat
  /-- Payload octets, cause first; at most 12. -/
  payload : Octets
  deriving DecidableEq, Repr, Inhabited

/-- An event waiting in the queue of R438: the KCLK cycle it was raised in and its entries not yet written. -/
structure EvWait where
  cycle : Nat
  started : Bool
  entries : List EvEntry
  deriving DecidableEq, Repr, Inhabited

/-- A critical entry waiting for the persistent log (R106, R108). -/
structure LogWait where
  secs : Nat
  ns : Nat
  code : Nat
  payload : Octets
  /-- Devices that still have to write it. -/
  devs : List Nat
  deriving DecidableEq, Repr, Inhabited

/-! ### Switch core (09, 10) -/

/-- Sources that write items into output buffers (R250). -/
inductive Writer where
  | localIn (port : Nat)
  | lineIn (m : Nat)
  | descStage (plane : Nat)
  | carillonDma (slice chan : Nat)
  | clusterDma (cluster : Nat)
  deriving DecidableEq, Repr, Inhabited

/-- What an operation or item was made for, and who learns of its end. -/
inductive Origin where
  /-- An accepted descriptor. -/
  | desc (id : Nat)
  /-- Piece k of a transfer. -/
  | xfer (id k : Nat)
  /-- A remote operation that arrived from the line (R321): entry of State.remoteOps. -/
  | remote (id : Nat)
  /-- A mirror operation of a partition (R405, R406, R408, R410). -/
  | mirror (p k : Nat)
  /-- A Carillon message of a peal (R157). -/
  | peal (p group peal : Nat)
  /-- A copy of a PTP message (R373): local port of arrival and its timestamp in half ns (R371). -/
  | ptp (port stamp : Nat)
  /-- Nobody: a completion, an ABORT. -/
  | nobody
  deriving DecidableEq, Repr, Inhabited

/-- What an item carries. -/
inductive Load where
  /-- A frame for a local output: destination, source or none for the port's own (R116), EtherType and payload after it. -/
  | frame (dst : BitVec 48) (src : Option (BitVec 48)) (etype : Nat) (body : Octets)
  /-- An item for a stream of a line output (R307): kind 1 Carillon message, 2 remote operation, 3 completion; the item's
  octets. Kind 3 travels on an accepted context, the others on an originated one. -/
  | stream (kind stream site : Nat) (body : Octets)
  deriving DecidableEq, Repr, Inhabited

/-- Stage of an item in the switch core. -/
inductive ItemStage where
  /-- Offered, admission not yet tested. -/
  | offered
  /-- Waiting for buffer space under R256. -/
  | wantsBuffer
  /-- Holds a buffer, waits for its writer to have written those before it, then for the output's claim capacity under R251. -/
  | wantsOutput
  | writing
  | queued
  deriving DecidableEq, Repr, Inhabited

/-- An item of the switch core (R248 to R259). -/
structure Item where
  id : Nat
  part : Nat
  cls : Nat
  len : Nat
  writer : Writer
  origin : Origin
  load : Load
  /-- Its outputs, all of one die: switch port and VLAN ID. -/
  outs : List (Nat × Nat)
  stage : ItemStage
  /-- Buffer: die, pool, pointer. -/
  buf : Option (Nat × Nat × Nat)
  /-- The receive stage that still holds the frame: local port and units (R249). -/
  rx : Option (Nat × Nat)
  /-- The Basalt buffer in which a line ingress item lies until its last octet is written (R247, R256, R264). -/
  lineBuf : Option (Nat × Nat × Nat)
  /-- Ready time, in KCLK cycles, and the order of R251. -/
  ready : Nat
  deriving DecidableEq, Repr, Inhabited

/-- An allocated buffer (R257 to R260). -/
structure Buf where
  die : Nat
  pool : Nat
  ptr : Nat
  part : Nat
  refs : Nat
  fill : Nat
  /-- Content up to the fill length. -/
  data : Octets
  /-- Its bank has been found faulty: it is not pushed again before the next start or wake (R26, R412). -/
  bad : Bool
  deriving DecidableEq, Repr, Inhabited

/-- One pool of a die (R246, R247, R257): buffer size, count, pointers freed with the partition that held them last (top
first), next pointer never used, quarantined pointers with the partition charged, and the lowest free count since start. -/
structure Pool where
  bufSize : Nat
  size : Nat
  freed : List (Nat × Nat)
  fresh : Nat
  quarantined : List (Nat × Nat)
  low : Nat
  deriving DecidableEq, Repr, Inhabited

/-- Free buffers of a pool. -/
def Pool.free (p : Pool) : Nat := p.size - p.fresh + p.freed.length

/-- A queue (output, class, partition) with its entries, item ids in order, and its deficit (R255, R266). -/
structure Queue where
  out : Nat
  cls : Nat
  part : Nat
  entries : List Nat
  /-- Octets of buffers held. -/
  octets : Nat
  deficit : Nat
  deriving DecidableEq, Repr, Inhabited

/-- A token bucket: tokens in 2^−32 octets (R273). -/
structure Bucket where
  port : Nat
  cls : Nat
  tokens : Nat
  deriving DecidableEq, Repr, Inhabited

/-- One output of the switch core. -/
structure OutPort where
  /-- Items being written, whose claims count (R251). -/
  writing : List Nat
  /-- Items waiting for capacity, in ready order. -/
  waiting : List Nat
  /-- Partition served last in each class (R266). -/
  last : List Nat
  /-- Local output: REFCLK time in ps since VDD_KEEP rose at which the item it sends has ended (R268). -/
  busy : Nat
  deriving DecidableEq, Repr, Inhabited

/-! ### Local ports (04) -/

/-- State of a local port. -/
structure LocalPortState where
  /-- In service: enabled by its PORT record and its wavelengths (R20, R85). -/
  inService : Bool
  linkUp : Bool
  /-- Cumulative units granted to the link partner since link-up (R118). -/
  granted : Nat
  /-- Cumulative count last reported in a credit frame; none before the first. -/
  reported : Option Nat
  /-- Units of frames in the receive stage that came since link-up, and of those that came before the link last went down. -/
  staged : Nat
  stale : Nat
  /-- A checked frame is on its way out of the receive stage; those behind it, oldest first, with the partition that the map gave
  each and its timestamp (R117, R121, R371). -/
  inRx : Bool
  rxq : List (Nat × Nat × Octets)
  /-- Receive timestamp of the frame on its way, in half ns (R371). -/
  rxAt : Nat
  /-- Cumulative units the link partner granted (R118). -/
  peerGranted : Nat
  /-- Units consumed since link-up (R120). -/
  consumed : Nat
  /-- Frames counted for Snare, each direction (R63). -/
  snareRx : Nat
  snareTx : Nat
  deriving DecidableEq, Repr, Inhabited

/-- Why an accepted descriptor has not started. -/
inductive Hold where
  | running
  /-- Fenced: the earlier descriptors that must complete (R126). -/
  | fence (after : List Nat)
  /-- Held behind a waiting STEP_END (R138). -/
  | step
  /-- Waiting for a slice that accepts no new peal (R29), or for new windows (R50). -/
  | later
  deriving DecidableEq, Repr, Inhabited

/-- A descriptor accepted and not completed (R126). -/
structure Desc where
  id : Nat
  part : Nat
  hdr : DescHdr
  opcode : Nat
  hold : Hold
  /-- The command, for a held descriptor to start. -/
  cmd : Instr
  /-- PEAL_START or PROG_INVOKE accepted before the waiting STEP_END (R138). -/
  beforeStep : Bool
  deriving DecidableEq, Repr

/-- A node operation sent and not answered (R130). -/
structure NodeOp where
  tag : Word32
  part : Nat
  opcode : Nat
  /-- Octets that an OK completion carries. -/
  bodyLen : Nat
  origin : Origin
  deriving DecidableEq, Repr, Inhabited

/-- A pending WAIT_GE (R136). -/
structure SyncWait where
  desc : Nat
  part : Nat
  sync : Nat
  target : Nat
  timeout : Nat
  deriving DecidableEq, Repr, Inhabited

/-! ### Partitions (02) -/

/-- Partition states (R43). -/
inductive PState where
  | free | starting | active | reloading | halted | scrubbing
  deriving DecidableEq, Repr, Inhabited

/-- Mirror states (R408); codes of R446. -/
inductive MirrorState where
  | none | unprotected | heldBack | restoring | staged | mirrored | lagging
  deriving DecidableEq, Repr, Inhabited

/-- An owner-signed reload or release that waits for its step boundary (R112): the records of a reload, none for a
release. -/
structure WaitingReload where
  release : Bool
  conf : Conf
  deriving DecidableEq, Repr, Inhabited

/-- An open in-band program load (R219). -/
structure OpenLoad where
  hdr : ProgBegin
  /-- Octets of text followed by data accepted so far. -/
  octets : Octets
  deriving DecidableEq, Repr, Inhabited

/-- A program image in the program store (R217), with the load it came by. -/
structure ProgImage where
  part : Nat
  index : Nat
  clusters : Nat
  cores : Nat
  entry : Nat
  watchdog : Nat
  text : Octets
  data : Octets
  /-- Number of the load, so that a core knows whether its resident text is of the same program and load (R199). -/
  load : Nat
  deriving DecidableEq, Repr, Inhabited

/-- A trap record (R192). -/
structure TrapRec where
  seq : Nat
  kind : Nat
  cause : Nat
  /-- Group ID or program index. -/
  ident : Nat
  /-- Peal or invocation number. -/
  number : Nat
  ns : Nat
  index : Nat
  unitKind : Nat
  unit : Nat
  secs : Nat
  deriving DecidableEq, Repr, Inhabited

/-- State of a partition (R40 to R60, R138, R140, R191, R221). -/
structure PartState where
  state : PState
  mirror : MirrorState
  /-- (local port, VLAN ID) pairs in force in the map (R117). -/
  pairs : List (Nat × Nat)
  /-- Candidate pairs and line ports of R254. -/
  candPairs : List (Nat × Nat)
  candLines : List Nat
  step : Nat
  /-- Descriptor of the waiting STEP_END. -/
  stepEnd : Option Nat
  nextInvocation : Nat
  trapSeq : Nat
  /-- Trap ring by position (R191). -/
  traps : List (Nat × TrapRec)
  hint : Option (Nat × Nat)
  reload : Option WaitingReload
  /-- Last reload number accepted since start (R111). -/
  reloadNumber : Nat
  load : Option OpenLoad
  /-- Staged program images (R219) and whether the step boundary has passed since. -/
  stagedProgs : List (ProgImage × Bool)
  /-- New windows that wait for the old accesses to end (R50); none when the windows of Conf are in force. -/
  newWindows : Option (List Window)
  /-- Resources that still await the scrub of R60. -/
  scrubbing : List (PartRec × List Window)
  /-- Retired slices that have left its resource list (R29). -/
  lostSlices : List Nat
  /-- The waiting STEP_END's boundary has begun: step 3 of R138 is under way. -/
  inStep : Bool
  deriving DecidableEq, Repr, Inhabited

/-! ### Carillon (05, 06) -/

/-- An element on its way through a peal: an FP32 value or an integer, the flags raised, and the trap that arose here. -/
structure Elem where
  num : Num
  int : Int
  flags : FpFlags
  trap : Option Nat
  deriving DecidableEq, Repr, Inhabited

/-- A local member that has started (R150 to R153). -/
structure PealMember where
  rank : Nat
  desc : Nat
  coord : List Nat
  src : Nat
  dst : Nat
  addSync : Bool
  sync : Nat
  syncAmount : Nat
  cls : Class
  deriving DecidableEq, Repr, Inhabited

/-- Kinds of DMA work of a peal (R170). -/
inductive PealWork where
  /-- Contribution read of a chunk: exponent pass or sum pass. -/
  | read (chunk rank : Nat) (exponentPass : Bool)
  | write (chunk rank : Nat)
  deriving DecidableEq, Repr, Inhabited

/-- A chunk of an open peal (R149, R157, R160, R166). -/
structure PealChunk where
  number : Nat
  /-- Exponent pass: local ranks read, the running maximum of their octets, and the children heard: site rank,
  contributors, octets. -/
  expLocal : List Nat
  octets : List Nat
  expChildren : List (Nat × Nat × List Nat)
  expUpSent : Bool
  /-- Agreed octets (R181). -/
  agreed : Option (List Nat)
  /-- Sum pass, or the only pass: the elements of each local rank read. -/
  locals : List (Nat × List Elem)
  /-- Copying kinds: the output patterns of each group rank known here (R190). -/
  copies : List (Nat × List Nat)
  /-- Children's payloads: site rank, contributors, octets so far; and the children whose payload is complete. -/
  children : List (Nat × Nat × Octets)
  childrenDone : List Nat
  upSent : Bool
  /-- Parts of the RESULT_DOWN being assembled. -/
  down : Octets
  /-- The result: for ALL_GATHER by group rank, otherwise under 0; none for an element that is not received here. -/
  result : Option (List (Nat × List (Option Nat)))
  /-- Local ranks whose write has been issued, and those of them whose write has not ended. -/
  written : List Nat
  writing : List Nat
  /-- Projection (R169, R224): the octets agreed among the local members, the local result in the input format, its
  projected vector, the role under way, and the full-length result. -/
  localOct : Option (List Nat)
  projIn : Option (List Nat)
  projected : Option (List Nat)
  projRole : Option Nat
  expanded : Option (List Nat)
  /-- Its partial was discarded with a faulty adder group: it never completes (R29, R412). -/
  lost : Bool
  deriving DecidableEq, Repr, Inhabited

/-- States of a peal that is open; DONE and FAILED peals are retained (R160). -/
inductive PealState where
  | open | agreeing | reducing | delivering
  deriving DecidableEq, Repr, Inhabited

/-- A peal open on this gateway. -/
structure Peal where
  number : Nat
  state : PealState
  /-- The first PEAL_START's body, stream base and class. -/
  first : Option (PealStart × Nat × Class)
  members : List PealMember
  /-- The local contributor set by local rank, once fixed (R164). -/
  cut : Option (List Nat)
  chunks : List PealChunk
  todo : List PealWork
  /-- Transfers given to a DMA channel so far (R170). -/
  issued : Nat
  flags : FpFlags
  poisoned : Bool
  saturated : Bool
  /-- Lowest element that trapped, its cause, and Quartz seconds and ns of its detection (R191). -/
  trap : Option (Nat × Nat × Nat × Nat)
  /-- Contributors over the group; 0 before it is known. -/
  total : Nat
  /-- Messages that arrived before the peal's form was known here, in order. -/
  early : List Instr
  /-- Streams on which its messages arrived, with the remote site. -/
  incoming : List (Nat × Nat)
  deriving DecidableEq, Repr

/-- A finished peal whose number is retained (R153, R167). -/
structure Retained where
  number : Nat
  status : Status
  contributors : Nat
  failed : Bool
  started : List Nat
  deriving DecidableEq, Repr, Inhabited

/-- A defined group (R144, R145, R153). -/
structure Group where
  part : Nat
  defn : GroupDef
  /-- Not defined by a GROUP_DEFINE since the last start or reload: by a GROUP record, or before that reload (R145). -/
  fromRecord : Bool
  base : Nat
  peals : List Peal
  /-- Last four finished peals, oldest first. -/
  retained : List Retained
  /-- Finished peal numbers at or after the base. -/
  finished : List Nat
  /-- A staged definition, or a staged removal. -/
  staged : Option (Option GroupDef)
  deriving DecidableEq, Repr

/-- A Carillon slice (R28, R29, R171). -/
structure Slice where
  retired : Bool
  /-- Adder lanes left as spares: one per group of 16, groups with a faulty lane now (R28, R29). -/
  spareUsed : List Nat
  /-- Adder groups out of service and not yet substituted. -/
  faulty : List Nat
  /-- For each faulty group, the partitions that have yet to pass a step boundary since its fault (R29). -/
  waitParts : List (Nat × Nat)
  /-- New peals wait. -/
  closed : Bool
  /-- Messages of other gateways that would open a peal here while new peals wait (R29; log entry 12). -/
  early : List Instr
  deriving DecidableEq, Repr, Inhabited

/-- Use of a multi-piece access to global memory. -/
inductive XferUse where
  | contribution (p group peal chunk rank : Nat) (exponentPass : Bool)
  | result (p group peal chunk rank : Nat)
  /-- Reading or writing side of the DMA job at the head of a cluster's engine. -/
  | dma (cluster : Nat)
  /-- Source read of the TENSOR_LOAD at the head of an expander. -/
  | tensor (die : Nat)
  deriving DecidableEq, Repr, Inhabited

/-- A transfer in pieces of at most 8,192 octets (R170, R215): outstanding pieces, octets gathered and the first failure. -/
structure Xfer where
  id : Nat
  part : Nat
  use : XferUse
  read : Bool
  length : Nat
  /-- The DMA channel, engine or stage that writes its items. -/
  writer : Writer
  /-- Pieces not yet answered. -/
  left : List Nat
  data : Octets
  status : Status
  deriving DecidableEq, Repr, Inhabited

/-! ### Clusters (07, 08) -/

/-- How an invocation ends (R222). -/
inductive InvEnd where
  | exit | exception | watchdog | trap
  deriving DecidableEq, Repr, Inhabited

/-- For whom an invocation runs. -/
inductive InvFor where
  | desc (id : Nat)
  /-- Role 0 or 1 of a projection in staging slot `slot` (R224). -/
  | projection (group peal chunk role slot : Nat)
  deriving DecidableEq, Repr, Inhabited

/-- An invocation from its acceptance to its completion (R199 to R202, R221). `id` is the model's own number. -/
structure Invocation where
  id : Nat
  part : Nat
  number : Nat
  index : Nat
  cluster : Nat
  image : ProgImage
  args : List Word64
  purpose : InvFor
  addSync : Bool
  sync : Nat
  syncAmount : Nat
  /-- Device-wide numbers of its cores, core 0 first; empty while it waits. -/
  cores : List Nat
  ended : Option InvEnd
  status : Status
  core : Nat
  exit : Word64
  mcause : Nat
  mepc : Nat
  mtval : Nat
  flags : FpFlags
  poisoned : Bool
  /-- Lowest trapping element index with cause, unit kind, unit and Quartz time (R191). -/
  trap : Option (Nat × Nat × Nat × Nat × Nat × Nat)
  /-- Device-local ranges that its stream instructions, DMA transfers and matrix commands could write: space, cluster,
  address, length (R202). -/
  wrote : List (Space × Nat × Nat × Nat)
  deriving DecidableEq, Repr, Inhabited

/-- What a stalled core waits for (R206, R214, R228, R229). -/
inductive Stall where
  | none
  | swait (rd : Nat)
  | dwait (ticket rd : Nat)
  | mwait (ticket rd : Nat)
  | cvlock (rd : Nat)
  /-- Stream queue, DMA limit or engine queue full, check-value unit busy, or an access that waits under R50 or R405: the
  command that is tried again. -/
  | retry (i : Instr)
  deriving DecidableEq, Repr, Inhabited

/-- A matrix command between its MSUB and its MWAIT (R235): engine, ticket, ranges that it reads (space, cluster, address,
length), scratch address of its C, whether the rule of R235 has been broken, and whether the command has written its C. -/
structure MatWatch where
  engine : Nat
  ticket : Nat
  reads : List (Space × Nat × Nat × Nat)
  c : Nat
  raced : Bool
  done : Bool
  deriving DecidableEq, Repr, Inhabited

/-- A ticket's state (R214): none while outstanding. -/
abbrev Ticket := Nat × Option Status

/-- A Tabor core (R195 to R203). -/
structure Core where
  /-- Invocation that holds it. -/
  inv : Option Nat
  running : Bool
  pc : Word64
  regs : Vector Word64 32
  /-- Octets of text resident, then zeros to 64 KiB, and data memory. -/
  imem : List Host.Cell
  dmem : List Host.Cell
  /-- Program and load of the resident text; none when it must be copied afresh (R199, R223). -/
  resident : Option (Nat × Nat × Nat)
  hart : Nat
  windows : Vector Word64 16
  statusTrunc : Bool
  statusIndex : Bool
  scount : Word32
  sscalar : Word32
  sinv : Word32
  cycles : Word64
  instret : Word64
  /-- LR reservation: number of its granule and mcycle of the LR (R198). -/
  reserve : Option (Nat × Nat)
  mcause : Nat
  mepc : Word64
  mtval : Word64
  dmaNext : Nat
  dmaTickets : List Ticket
  matNext : Nat
  matTickets : List Ticket
  /-- Matrix commands not yet waited for (R235). -/
  matOpen : List MatWatch
  stall : Stall
  /-- Found faulty and not yet substituted (R26). -/
  faulty : Bool
  deriving DecidableEq, Repr

/-- The stream operations of R204, by funct3. -/
inductive StreamOp where
  | ssum | smap | sscan | sgather | sfilter | ssort | smerge
  deriving DecidableEq, Repr, Inhabited

/-- A stream instruction in the cluster's queue (R206). -/
structure StreamJob where
  core : Nat
  inv : Nat
  op : StreamOp
  strict : Bool
  modifier : Nat
  /-- Windows rd, rs1, rs2 as read at issue; SSCALAR as read at issue. -/
  rd : Word64
  rs1 : Word64
  rs2 : Word64
  scalar : Word32
  deriving DecidableEq, Repr, Inhabited

/-- A DMA job (R215). -/
structure DmaJob where
  core : Nat
  inv : Nat
  ticket : Nat
  block : Octets
  started : Bool
  deriving DecidableEq, Repr, Inhabited

/-- A matrix command in an engine's queue (R216). -/
structure MatJob where
  core : Nat
  inv : Nat
  ticket : Nat
  block : Octets
  deriving DecidableEq, Repr, Inhabited

/-- A cluster (R14, R28, R206, R226 to R229). -/
structure Cluster where
  retired : Bool
  scratch : List Host.Cell
  streamQ : List StreamJob
  dmaQ : List DmaJob
  /-- Invocations accepted and not started, in order (R221). -/
  waiting : List Nat
  /-- Check-value unit: lock holder and waiting cores, algorithm, register, octets fed and not yet taken. -/
  cvHolder : Option Nat
  cvWaiting : List Nat
  cvAlg : Nat
  cvReg : Nat
  cvBusy : Bool
  /-- Faulty stream unit; faulty check-value unit (R412). -/
  faulty : Bool
  cvFaulty : Bool
  /-- Power state: 0 A0, 1 A1, 2 A2, 3 entered with its plane (R423); target while entering, waking. -/
  power : Nat
  entering : Option Nat
  waking : Bool
  deriving DecidableEq, Repr, Inhabited

/-- A matrix engine (R216, R235). -/
structure Engine where
  queue : List MatJob
  faulty : Bool
  deriving DecidableEq, Repr, Inhabited

/-- A TENSOR_LOAD at a memory-side expander (R242 to R245). -/
structure TensorJob where
  desc : Nat
  part : Nat
  expand : Bool
  port : Nat
  stream : Nat
  cls : Class
  op : TensorLoad
  /-- Header of a GLOBAL source, once it has been read. -/
  header : Option Octets
  /-- Its end has come, and its write waits for a mirror (R405). -/
  blocked : Bool
  deriving DecidableEq, Repr, Inhabited

/-! ### Line framing and monitoring (11) -/

/-- A line key as one side holds it: activation index, nonce, key and salt (R342). -/
structure LineKey where
  a : Nat
  nonce : Nat
  key : Octets
  salt : Octets
  deriving DecidableEq, Repr, Inhabited

/-- What one second of a line port showed (R295, R297), and whether the port was disabled for part of it (R299). -/
structure PmSecond where
  off : Bool
  near : Nat
  nearDefect : Bool
  far : Nat
  farDefect : Bool
  corrected : Nat
  uncorrectable : Nat
  peak : Nat
  deriving DecidableEq, Repr, Inhabited

/-- A performance bin (R299). -/
structure PmBin where
  start : Nat
  es : Nat
  ses : Nat
  uas : Nat
  bbe : Nat
  farEs : Nat
  farSes : Nat
  farUas : Nat
  farBbe : Nat
  corrected : Nat
  uncorrectable : Nat
  peak : Nat
  incomplete : Bool
  portOff : Bool
  deriving DecidableEq, Repr, Inhabited

/-- Performance monitoring of a line port (R295 to R299). -/
structure PmState where
  cur : PmSecond
  /-- Seconds not yet counted, oldest first: Quartz second, what it showed. -/
  window : List (Nat × PmSecond)
  nearUnavail : Bool
  farUnavail : Bool
  /-- Peak of the last completed second (FEC_CORR_PEAK). -/
  lastPeak : Nat
  bin15 : PmBin
  bin24 : PmBin
  /-- Completed bins, newest first. -/
  done15 : List PmBin
  done24 : List PmBin
  deriving DecidableEq, Repr, Inhabited

/-- A multiframe being received (R290, R291): TTI octets, channel octets, and whether a frame of it was lost or met OOM. -/
structure RxMultiframe where
  tti : Octets
  chA : Octets
  chB : Octets
  bad : Bool
  deriving DecidableEq, Repr, Inhabited

/-- Frame alignment and the overhead state of a line receiver (R283 to R291). -/
structure LineRxState where
  inFrame : Bool
  /-- Physical lane that carries each logical lane, once aligned (R283). -/
  order : List Nat
  /-- Lane offsets by logical lane of the last lane frame with a full set of FAS words, in OOF (R285). -/
  candidate : Option (List Nat)
  badFas : Nat
  inMulti : Bool
  /-- Last MFAS seen, correct sequences in OOM, mismatches in IM, expected counter. -/
  lastMfas : Option Nat
  goodSeq : Nat
  badSeq : Nat
  expected : Nat
  /-- BIP-16 computed over the last decoded frame; none when it was uncorrectable. -/
  bip : Option Nat
  dlos : Bool
  dlof : Bool
  dlom : Bool
  dtim : Bool
  cur : RxMultiframe
  prev : Option RxMultiframe
  /-- OTAG octets of the current multiframe, and its KEP. -/
  otag : Octets
  kep : Nat
  otagBad : Bool
  lastCounter : Option Nat
  keys : List LineKey
  /-- Last counter of an acknowledgement block accepted, by epoch (R308). -/
  ackCounters : List (Nat × Nat)
  trace : Octets
  tracePeriods : List Octets
  chanA : List Octets
  chanB : List Octets
  slipA : Bool
  slipB : Bool
  deriving DecidableEq, Repr, Inhabited

/-- The transmit side of a line port (R279, R288, R289, R291, R342). -/
structure LineTxState where
  mfas : Nat
  bip : Nat
  bei : Nat
  bue : Nat
  /-- OTAG octets and KEP of the multiframe being sent. -/
  otag : Octets
  kep : Nat
  chA : Octets
  chB : Octets
  /-- Channel octets of the next multiframe, from MCHn_TXD. -/
  nextA : Octets
  nextB : Octets
  key : Option LineKey
  /-- Invocations of the line key used, and its usage limit: that of the blob when it was activated (R339, R356). -/
  used : Nat
  limit : Nat
  deriving DecidableEq, Repr, Inhabited

/-! ### Transport (12) -/

/-- A piece of an item in a segment (R307). -/
structure Piece where
  kind : Nat
  first : Bool
  last : Bool
  itemLength : Nat
  octets : Octets
  /-- The buffer on which the piece has its retransmission hold (R311). -/
  buf : Option (Nat × Nat × Nat)
  deriving DecidableEq, Repr, Inhabited

/-- Body of a segment to be sent. -/
inductive SegBody where
  | data (pieces : List Piece)
  | openBody (cls secs ns : Nat)
  | reset (status : Status) (secs ns : Nat)
  deriving DecidableEq, Repr, Inhabited

/-- A sent segment that is held (R311). -/
structure HeldSeg where
  seq : Nat
  body : SegBody
  /-- None while an OPEN waits for its first slot. -/
  firstSent : Option Nat
  lastSent : Nat
  retries : Nat
  /-- Queued to be sent again. -/
  queued : Bool
  deriving DecidableEq, Repr, Inhabited

/-- States of a context (R322). -/
inductive CtxState where
  | idle
  | open
  | failed (status : Status)
  deriving DecidableEq, Repr, Inhabited

/-- A remote operation outstanding on an originated stream, by the Doldex's own tag (R321). -/
structure StreamReq where
  tag : Word32
  opcode : Nat
  bodyLen : Nat
  origin : Origin
  deriving DecidableEq, Repr, Inhabited

/-- A received segment that is held: its sequence, plaintext, whether the bitmap marks it, and its buffer (R308). -/
structure StoredSeg where
  seq : Nat
  plain : Octets
  marked : Bool
  buf : Option (Nat × Nat × Nat)
  deriving DecidableEq, Repr, Inhabited

/-- The item being reassembled: kind, length, octets so far, its buffer (R320). -/
structure RxItem where
  kind : Nat
  length : Nat
  octets : Octets
  buf : Option (Nat × Nat × Nat)
  deriving DecidableEq, Repr, Inhabited

/-- A stream context (R300 to R304). Times of sending and of arrival are timestamps of the line ports, in half ns (R371). -/
structure Ctx where
  key : CtxKey
  part : Nat
  state : CtxState
  site : Nat
  line : Nat
  /-- Line port on which it last received; the model's own field (R304, R320). -/
  rxLine : Nat
  incarnation : Nat
  cls : Nat
  /-- Quartz ns. -/
  openTime : Nat
  sendNext : Nat
  sendBase : Nat
  peerWindow : Nat
  srtt : Option Nat
  rttvar : Nat
  rto : Nat
  held : List HeldSeg
  /-- Item in the midst of being sent, and octets already sent (R309). -/
  sending : Option (Nat × Nat)
  ops : List StreamReq
  arrivals : Nat
  firstArrival : Option Nat
  lastArrival : Nat
  /-- Quartz ns at which its record became due. -/
  recordDue : Option Nat
  cumulative : Nat
  advertised : Nat
  stored : List StoredSeg
  item : Option RxItem
  /-- An item whose first piece stands in the segment at the cumulative waits for its buffer: number of pieces of that segment
  already delivered (R321). -/
  waitBuffer : Option Nat
  /-- Remote operations of an accepted context not yet answered. -/
  unanswered : Nat
  deriving DecidableEq, Repr, Inhabited

/-- A remote operation that arrived from the line and runs on the node path (R321). -/
structure RemoteOp where
  id : Nat
  part : Nat
  ctx : CtxKey
  incarnation : Nat
  opcode : Nat
  tag : Nat
  stream : Nat
  wantCompletion : Bool
  /-- The command, while it waits for new windows, for a mirror, or behind an earlier operation of its stream (R50, R133, R405). -/
  held : Option Instr
  /-- The Basalt buffer in which it arrived, until it is delivered (R247, R321). -/
  buf : Option (Nat × Nat × Nat)
  deriving DecidableEq, Repr, Inhabited

/-- A segment chosen for a slot, on its way through the cipher (R309, R313, R332): its octets when sealed, and what an
erase of its key slot withdraws (R348). -/
structure SegBuild where
  ctx : Option CtxKey
  part : Nat
  /-- Sequence of a segment that is held, and whether it is sent again. -/
  seq : Option Nat
  again : Bool
  keySlot : Option Nat
  /-- Line-key slot under which its acknowledgement block is sealed. -/
  blockSlot : Option Nat
  /-- Class under which it is counted when its frame leaves (R277). -/
  cls : Nat
  octets : Octets
  withdrawn : Bool
  deriving DecidableEq, Repr, Inhabited

/-- What one seal of a segment uses: key, salt, invocation counter, epoch and slot (R305, R329, R338). -/
structure SealKey where
  key : Octets
  salt : Octets
  counter : Nat
  epoch : Nat
  slot : Nat
  deriving DecidableEq, Repr, Inhabited

/-- A control segment that waits for a slot (R307, R322): an OPEN, which is sequenced and held and is sealed at its slot, or
a RESET with its status, which is sent once under the key it took when its stream failed. -/
structure ControlWait where
  ctx : CtxKey
  part : Nat
  cls : Nat
  incarnation : Nat
  reset : Option (Status × SealKey)
  deriving DecidableEq, Repr, Inhabited

/-- A line port. -/
structure LinePortState where
  /-- Enabled and neither retired nor disabled for want of lanes or pool space. -/
  inService : Bool
  tx : LineTxState
  rx : LineRxState
  pm : PmState
  sealing : Option SegBuild
  /-- Segments sealed too late for their slot, oldest first (R332). -/
  late : List SegBuild
  controls : List ControlWait
  /-- Contexts that have a retransmission queued: context and sequence, first to go first. -/
  retx : List (CtxKey × Nat)
  /-- Quartz time in 2^−28 ns at which the owned entry in force began, while one is; the port holds 3 cipher cores for it unless
  `isoShort` (R333). -/
  isoEntry : Option Nat
  isoShort : Bool
  /-- Transmit timestamp of the frame slot in progress, in half ns (R268, R371). -/
  slotAt : Nat
  snareTx : Nat
  snareRx : Nat
  deriving DecidableEq, Repr, Inhabited

/-! ### Keys and random numbers (13) -/

/-- A magazine: its wrapped blobs and, for each position unwrapped, key, salt and usage limit (R338, R340). -/
structure Magazine where
  blobs : List KeyBlobRec
  keys : List (Octets × Octets × Nat)
  deriving DecidableEq, Repr, Inhabited

/-- States of a slot (R340). -/
inductive SlotState where
  | empty | active | exhausted
  deriving DecidableEq, Repr, Inhabited

/-- A key slot of 64 or above (R337 to R342). -/
structure KeySlot where
  slot : Nat
  part : Nat
  usage : Nat
  state : SlotState
  mag : Magazine
  staged : Option Magazine
  /-- Magazine number m, current position, generation. -/
  magNum : Nat
  pos : Nat
  generation : Nat
  /-- Activation index of the current key; none while Quartz is UNSET (R329). -/
  activation : Option Nat
  /-- Invocations of the current key granted so far (R339). -/
  granted : Nat
  /-- Epoch of the latest line-key activation, and its port (R337). -/
  lineEpoch : Nat
  linePort : Option Nat
  /-- A magazine has been installed since start: `magNum` is its number (R338). -/
  held : Bool
  deriving DecidableEq, Repr, Inhabited

/-- A line die's block of invocations of a slot's key (R339): slot, generation, position, next index, end. The block granted
ahead of need stands after the one in use. -/
structure KeyBlock where
  die : Nat
  slot : Nat
  generation : Nat
  pos : Nat
  next : Nat
  stop : Nat
  activation : Nat
  deriving DecidableEq, Repr, Inhabited

/-- A bulk message in a line die's cipher cores (R334 to R336). -/
structure BulkJob where
  id : Nat
  die : Nat
  part : Nat
  isSeal : Bool
  started : Bool
  aborted : Bool
  plain : Octets
  /-- What the message is: 0 a page sealed, 1 a record sealed, 2 a record opened, 3 a page opened; and which page. -/
  purpose : Nat
  arg : Nat
  /-- For an open: the envelope. -/
  envelope : Octets
  /-- For a seal: where the envelope goes in the partner's store. -/
  dest : Nat
  /-- The key, the salt and the counter that it is bound to from its start to its end; no key where it could have none, or after an
  abort. What a core saves of it while it is suspended follows from these and the octets (R334, R347, R348). -/
  key : Octets
  salt : Octets
  counter : Nat
  deriving DecidableEq, Repr, Inhabited

/-- States of the entropy source (R354). -/
inductive EntState where
  | healthy | failed | latched
  deriving DecidableEq, Repr, Inhabited

end Sys2Proof.Machine
end

