-- ==== Sys2Proof/Machine/Slate.lean ====
section
/-! DEFINITION. The Slate container: parsing of records (R78 to R95), commit records (R96, R97), and the validation
steps 1 to 10 of R99, which a reload uses too (R111). A failing check answers with its step and the octet offset at which it fails. -/

namespace Sys2Proof.Machine

/-- A failing check: its step, the octet offset at which it failed, and whether a group outgrew its headroom (R90, R99). -/
structure CheckFail where
  step : Nat
  off : Nat
  overflow : Bool
  deriving DecidableEq, Repr, Inhabited

/-- A check of the container: its result, or where it failed (R99). -/
abbrev Checked (α : Type) := Except CheckFail α

/-- Fails at a step and offset unless the condition holds. -/
def need (step off : Nat) (c : Bool) : Checked Unit := if c then .ok () else .error ⟨step, off, false⟩

/-- Guards an Option parse. -/
def okIf (c : Bool) : Option Unit := if c then some () else none

/-- The checks of a record's fields, each with the octet at which its field begins: the foremost that fails says where (R99 step 8). A
check that several fields take part in stands at the last of them. -/
def fieldsOk (l : List (Nat × Bool)) : Except Nat Unit :=
  match ((l.filter (fun c => !c.2)).map Prod.fst).min? with
  | none => .ok ()
  | some o => .error o

/-- `n` fields of `w` octets from offset `o`. -/
def fieldsAt (o w n : Nat) (x : Octets) : List Nat := (List.range n).map (fun i => beAt (o + w * i) w x)

/-! ### Record parsing: step 8 (R83 to R95) -/

/-- PARTITION (R83). -/
def parsePart (x : Octets) : Except Nat PartRec := do
  let p := octetAt 8 x
  let fl := octetAt 9 x
  let np := beAt 128 2 x
  fieldsOk [(8, p < 64), (9, fl < 8), (14, zerosAt 14 2 x), (32, beAt 32 4 x < 1048576), (40, beAt 40 4 x ≤ 65536),
    (44, beAt 44 4 x ≤ 65536), (80, bitOf fl 2 || zerosAt 80 48 x), (128, np ≤ 256 && x.length == 136 + 4 * np), (130, zerosAt 130 6 x)]
  fieldsOk ((List.range np).flatMap (fun i =>
    let o := 136 + 4 * i
    [(o, octetAt o x < 64), (o + 1, octetAt (o + 1) x == 0), (o + 2, 1 ≤ beAt (o + 2) 2 x && beAt (o + 2) 2 x ≤ 4094)]))
  .ok { part := p, isolated := bitOf fl 0, haltOnNan := bitOf fl 1, tenantPrograms := bitOf fl 2,
        clusterMask := beAt 10 2 x, lineMask := beAt 12 2 x, weights := fieldsAt 16 1 4 x,
        keyFirst := beAt 20 2 x, keyCount := beAt 22 2 x, syncFirst := beAt 24 2 x, syncCount := beAt 26 2 x,
        groupFirst := beAt 28 2 x, groupCount := beAt 30 2 x, streamFirst := beAt 32 4 x, streamCount := beAt 36 4 x,
        cache := fieldsAt 40 4 2 x, dma := fieldsAt 48 8 4 x, progKeyHash := slice 80 48 x,
        pairs := (List.range np).map (fun i => (octetAt (136 + 4 * i) x, beAt (138 + 4 * i) 2 x)) }

/-- PORT (R85). -/
def parsePort (x : Octets) : Except Nat PortRec := do
  let k := octetAt 10 x
  let asym := signedOf 32 (beAt 12 4 x)
  let g := beAt 16 2 x
  fieldsOk [(8, octetAt 8 x < 64), (9, octetAt 9 x < 4), (10, k == 0 || (4 ≤ k && k ≤ 24)), (11, zerosAt 11 1 x),
    (12, decide (-1000000 ≤ asym) && decide (asym ≤ 1000000)), (16, 36 ≤ g && g ≤ 4096), (18, zerosAt 18 6 x)]
  .ok { port := octetAt 8 x, enabled := bitOf (octetAt 9 x) 0, ptp := bitOf (octetAt 9 x) 1, snare := k, asym := asym, grant := g }

/-- LINE (R85). -/
def parseLine (x : Octets) : Except Nat LineRec := do
  let r := beAt 144 4 x
  fieldsOk [(8, octetAt 8 x < 16), (9, octetAt 9 x < 4), (10, octetAt 10 x == 0), (140, 64 ≤ beAt 140 2 x), (142, zerosAt 142 2 x),
    (144, 1 ≤ r && r ≤ 49152), (148, zerosAt 148 4 x)]
  .ok { port := octetAt 8 x, enabled := bitOf (octetAt 9 x) 0, traceStops := bitOf (octetAt 9 x) 1, site := octetAt 11 x,
        expected := slice 12 64 x, transmitted := slice 76 64 x, keySlot := beAt 140 2 x, reserve := r }

/-- SEGMENT (R85). -/
def parseSegment (x : Octets) : Except Nat Window := do
  let k := octetAt 10 x
  let rt := octetAt 11 x
  let c := octetAt 12 x
  fieldsOk [(8, octetAt 8 x < 64), (9, octetAt 9 x < 16), (10, 1 ≤ k && k ≤ 3), (11, rt < 16),
    (12, if k == 2 then decide (c < 16) else c == 0), (13, zerosAt 13 3 x)]
  .ok { part := octetAt 8 x, index := octetAt 9 x, kind := k, r := bitOf rt 0, w := bitOf rt 1, a := bitOf rt 2,
        i := bitOf rt 3, cluster := c, base := beAt 16 8 x, limit := beAt 24 8 x }

/-- KEYBLOB (R88). -/
def parseBlob (x : Octets) : Except Nat KeyBlobRec := do
  let s := beAt 8 2 x
  let u := octetAt 11 x
  let l := beAt 12 4 x
  fieldsOk [(8, 64 ≤ s && s ≤ 4095), (10, octetAt 10 x < 16), (11, u == 1 || u == 2), (16, beAt 16 2 x < 64), (18, beAt 18 2 x == 40),
    (20, zerosAt 20 4 x)]
  .ok { slot := s, pos := octetAt 10 x, usage := u, limit := if l == 0 then 2 ^ 32 else l, part := beAt 16 2 x,
        wrapped := slice 24 40 x }

/-- The masked axes (R141). -/
def maskedAxes (m : Nat) : List Nat := (List.range 6).filter (fun a => m.testBit a)

/-- Extent of an axis (R142). -/
def axisExtent (g : GroupDef) (a : Nat) : Nat := (g.high.getD a 0 - g.low.getD a 0) / g.stride.getD a 1 + 1

/-- Size of a group (R90). -/
def groupSize (g : GroupDef) : Nat := (maskedAxes g.axisMask).foldl (fun n a => n * axisExtent g a) 1

/-- P of a group: 0 means 24 (R88). -/
def groupP (g : GroupDef) : Nat := if g.p == 0 then 24 else g.p

/-- H = W − 1 − P (R90). -/
def groupH (g : GroupDef) : Nat := g.w - 1 - groupP g

/-- The checks of R88 and R141 on a group's fields, less partition and group ID, each with its place from octet 8 of the record. -/
def groupFields (g : GroupDef) : List (Nat × Bool) :=
  [(4, 1 ≤ g.axisCount && g.axisCount ≤ 6),
   (5, g.axisMask < 64 && (maskedAxes g.axisMask).length == g.axisCount),
   (6, g.mode == 1 || g.mode == 2),
   (7, g.policy == 1 || (g.policy == 2 && g.mode == 2)),
   (8, (g.axisOrder.drop g.axisCount).all (· == 0) &&
     (let o := g.axisOrder.take g.axisCount
      o.all (fun a => g.axisMask.testBit a && a < 6) && o.eraseDups.length == g.axisCount &&
      (!g.axisMask.testBit 0 || o.head? == some 0))),
   (14, g.w == 32 || g.w == 48),
   (15, g.p == 0 || (8 ≤ g.p && g.p ≤ g.w - 2)),
   (22, (List.range 6).all (fun a => g.low.getD a 0 ≤ g.high.getD a 0)),
   (28, (List.range 6).all (fun a => 1 ≤ g.stride.getD a 0)),
   (34, g.slice < 4),
   (36, 1 ≤ g.deadline && g.deadline ≤ 10000000),
   (40, if g.policy == 2 then 1 ≤ g.quorumMin && g.quorumMin ≤ groupSize g else g.quorumMin == 0),
   (42, g.proj < 256 || g.proj == 0xFFFF)]

/-- Fields of a group in their ranges (R88), less partition and group ID, and R141. -/
def groupFieldsOk (g : GroupDef) : Bool := (groupFields g).all Prod.snd

/-- The group fields at octet `o` of a record or body: `o` is the offset of octet 8 of the record (R88, R144). -/
def groupAt (o : Nat) (x : Octets) : GroupDef :=
  { group := beAt (o + 2) 2 x, axisCount := octetAt (o + 4) x, axisMask := octetAt (o + 5) x, mode := octetAt (o + 6) x,
    policy := octetAt (o + 7) x, axisOrder := fieldsAt (o + 8) 1 6 x, w := octetAt (o + 14) x, p := octetAt (o + 15) x,
    low := fieldsAt (o + 16) 1 6 x, high := fieldsAt (o + 22) 1 6 x, stride := fieldsAt (o + 28) 1 6 x,
    slice := octetAt (o + 34) x, deadline := beAt (o + 36) 4 x, quorumMin := beAt (o + 40) 2 x, proj := beAt (o + 42) 2 x }

/-- The reserved octets of a group definition (R88), with their places. -/
def groupReserved (o : Nat) (x : Octets) : List (Nat × Bool) :=
  [(1, zerosAt (o + 1) 1 x), (35, zerosAt (o + 35) 1 x), (44, zerosAt (o + 44) 4 x)]

def groupReservedOk (o : Nat) (x : Octets) : Bool := (groupReserved o x).all Prod.snd

/-- GROUP (R88). -/
def parseGroup (x : Octets) : Except Nat GroupRec := do
  let g := groupAt 8 x
  fieldsOk (([(0, decide (octetAt 8 x < 64)), (2, decide (g.group < 4096))] ++ groupReserved 8 x ++ groupFields g).map
    (fun (c : Nat × Bool) => (8 + c.1, c.2)))
  .ok { part := octetAt 8 x, group := g }

/-- PROGRAM (R91). -/
def parseProg (x : Octets) : Except Nat ProgRec := do
  let t := beAt 20 4 x
  let d := beAt 24 4 x
  let c := octetAt 14 x
  let w := beAt 28 4 x
  fieldsOk [(8, octetAt 8 x < 64), (9, octetAt 9 x == 0), (10, beAt 10 2 x < 256), (14, 1 ≤ c && c ≤ 16), (15, octetAt 15 x == 0),
    (16, beAt 16 4 x % 2 == 0), (20, 2 ≤ t && t ≤ 65536), (24, d ≤ 131072 && x.length == 8 * ceilDiv (32 + t + d) 8),
    (28, 1 ≤ w && w ≤ 10000000)]
  .ok { part := octetAt 8 x, index := beAt 10 2 x, clusters := beAt 12 2 x, cores := c, entry := beAt 16 4 x,
        watchdog := w, text := slice 32 t x, data := slice (32 + t) d x }

/-- Port rate of a switch port in bit/s (R273). -/
def portRate (sw : Nat) : Nat := if sw < 64 then 1600000000000 else 1553600000000

/-- SHAPER (R91). -/
def parseShaper (x : Octets) : Except Nat ShaperRec := do
  let p := beAt 8 2 x
  let fl := octetAt 11 x
  let r := beAt 16 8 x
  let d := beAt 24 4 x
  fieldsOk [(8, p < 80), (10, octetAt 10 x < 8), (11, fl < 4), (12, bitOf fl 0 || octetAt 12 x == 0), (13, zerosAt 13 3 x),
    (16, 1000000 ≤ r && r ≤ portRate p), (24, 9216 ≤ d && d ≤ 16777216), (28, zerosAt 28 4 x)]
  .ok { port := p, cls := octetAt 10 x, withOverhead := bitOf fl 0, startFull := bitOf fl 1, overhead := octetAt 12 x,
        rate := r, depth := d }

/-- GATE (R91). -/
def parseGate (x : Octets) : Except Nat GateRec := do
  let e := beAt 10 2 x
  let cy := beAt 16 8 x
  fieldsOk [(8, beAt 8 2 x < 80), (10, 1 ≤ e && e ≤ 256 && x.length == 40 + 8 * e), (12, zerosAt 12 4 x),
    (16, 1000 ≤ cy && cy ≤ 1000000000), (24, zerosAt 24 2 x), (32, beAt 32 4 x ≤ 999999999), (36, zerosAt 36 4 x)]
  fieldsOk ((List.range e).flatMap (fun i =>
    let o := 40 + 8 * i
    [(o + 1, octetAt (o + 1) x < 64 || octetAt (o + 1) x == 0xFF), (o + 2, zerosAt (o + 2) 2 x), (o + 4, 100 ≤ beAt (o + 4) 4 x)]))
  .ok { port := beAt 8 2 x, cycle := cy, baseSecs := beAt 24 8 x, baseNs := beAt 32 4 x,
        entries := (List.range e).map (fun i => ⟨octetAt (40 + 8 * i) x, octetAt (41 + 8 * i) x, beAt (44 + 8 * i) 4 x⟩) }

/-- TIME (R93). -/
def parseTime (x : Octets) : Except Nat TimeRec := do
  let tr := signedOf 32 (beAt 8 4 x)
  let dl := signedOf 32 (beAt 16 4 x)
  fieldsOk [(8, decide (-200000 ≤ tr) && decide (tr ≤ 200000)), (12, octetAt 12 x < 4), (13, zerosAt 13 3 x),
    (16, decide (-100000 ≤ dl) && decide (dl ≤ 100000)), (20, beAt 20 4 x ≤ 999999999)]
  .ok { trim := tr, ppsOut := bitOf (octetAt 12 x) 0, ppsIn := bitOf (octetAt 12 x) 1, cableDelay := dl, ppsOffset := beAt 20 4 x }

/-- POWER (R93). -/
def parsePower (x : Octets) : Except Nat PowerRec := do
  let w := beAt 16 2 x
  let m := beAt 10 2 x
  let t := octetAt 12 x
  fieldsOk [(8, octetAt 8 x ≤ 4), (9, octetAt 9 x < 2), (10, 1 ≤ m && m ≤ 60000), (12, 40 ≤ t && t ≤ 110), (13, zerosAt 13 3 x),
    (16, w ≤ 16 && x.length == 24 + 16 * w), (18, zerosAt 18 6 x)]
  fieldsOk ((List.range w).flatMap (fun i =>
    let o := 24 + 16 * i
    [(o, zerosAt o 2 x), (o + 8, 1 ≤ beAt (o + 8) 4 x && beAt (o + 8) 4 x ≤ 86400), (o + 12, zerosAt (o + 12) 4 x)]))
  .ok { deepest := octetAt 8 x, standby := bitOf (octetAt 9 x) 0, margin := m, wakeTemp := (t : Int),
        windows := (List.range w).map (fun i => (beAt (24 + 16 * i) 8 x, beAt (32 + 16 * i) 4 x)) }

/-- SPARE_POLICY (R93); a margin of 0 means 30. -/
def parseSpare (x : Octets) : Except Nat SpareRec := do
  let m := octetAt 8 x
  fieldsOk [(8, m == 0 || (30 ≤ m && m ≤ 100)), (9, octetAt 9 x ≤ 2), (10, octetAt 10 x ≤ 4), (11, zerosAt 11 5 x)]
  .ok { margin := if m == 0 then 30 else m, pll := octetAt 9 x, warning := octetAt 10 x }

/-- LIMITS (R93). -/
def parseLimits (x : Octets) : Except Nat LimitsRec := do
  let k := signedOf 8 (octetAt 9 x)
  let t := beAt 104 2 x
  fieldsOk [(8, octetAt 8 x < 64), (9, decide (-4 ≤ k) && decide (k ≤ 3)), (10, zerosAt 10 6 x),
    (104, t ≤ 640 && x.length == 112 + 8 * t), (106, zerosAt 106 6 x)]
  fieldsOk ((List.range t).flatMap (fun i =>
    let o := 112 + 8 * i
    [(o, octetAt o x < 80), (o + 1, octetAt (o + 1) x < 8), (o + 2, zerosAt (o + 2) 2 x)]))
  .ok { part := octetAt 8 x, k := k, planeShares := fieldsAt 16 4 16 x, lineShares := fieldsAt 80 4 6 x,
        limits := (List.range t).map (fun i => (octetAt (112 + 8 * i) x, octetAt (113 + 8 * i) x, beAt (116 + 8 * i) 4 x)) }

/-- FIRMWARE (R95). -/
def parseFw (x : Octets) : Except Nat FwRec := do
  let n := beAt 12 4 x
  fieldsOk [(12, 4096 ≤ n && n ≤ 4194304 && x.length == 8 * ceilDiv (264 + n) 8), (113, zerosAt 113 3 x), (260, zerosAt 260 4 x)]
  .ok { version := beAt 8 4 x, vendorKey := slice 16 97 x, codeHash := slice 116 48 x, signature := slice 164 96 x,
        signed := slice 0 164 x, code := slice 264 n x }

/-! ### Record types (R81) -/

/-- The instance that a record's own fields give (R80, R81). -/
def ownInst (type : Nat) (x : Octets) : Nat :=
  match type with
  | 0x0101 | 0x0102 | 0x0103 | 0x010D => octetAt 8 x
  | 0x0104 => 16 * octetAt 8 x + octetAt 9 x
  | 0x0105 => 16 * (beAt 8 2 x - 64) + octetAt 10 x
  | 0x0106 => beAt 10 2 x
  | 0x0107 => 256 * octetAt 8 x + beAt 10 2 x
  | 0x0108 => 8 * beAt 8 2 x + octetAt 10 x
  | 0x0109 => beAt 8 2 x
  | _ => 0

/-- Least and greatest number of records of a type; none for an unknown type (R81). -/
def typeCount : Nat → Option (Nat × Nat)
  | 0x0101 => some (1, 64)
  | 0x0102 => some (0, 64)
  | 0x0103 => some (0, 16)
  | 0x0104 => some (0, 1024)
  | 0x0105 => some (0, 64512)
  | 0x0106 => some (0, 4096)
  | 0x0107 => some (0, 16384)
  | 0x0108 => some (0, 640)
  | 0x0109 => some (0, 80)
  | 0x010A | 0x010B | 0x010C => some (0, 1)
  | 0x010D => some (0, 64)
  | 0x01F0 => some (1, 1)
  | _ => none

/-- All the record types. -/
def recordTypes : List Nat :=
  [0x0101, 0x0102, 0x0103, 0x0104, 0x0105, 0x0106, 0x0107, 0x0108, 0x0109, 0x010A, 0x010B, 0x010C, 0x010D, 0x01F0]

/-- Length of a record of a type as R81 fixes it, from its own count fields. -/
def typeLength (type : Nat) (x : Octets) : Nat :=
  match type with
  | 0x0101 => 136 + 4 * beAt 128 2 x
  | 0x0102 => 24
  | 0x0103 => 152
  | 0x0104 => 32
  | 0x0105 => 64
  | 0x0106 => 56
  | 0x0107 => 8 * ceilDiv (32 + beAt 20 4 x + beAt 24 4 x) 8
  | 0x0108 => 32
  | 0x0109 => 40 + 8 * beAt 10 2 x
  | 0x010A => 24
  | 0x010B => 24 + 16 * beAt 16 2 x
  | 0x010C => 16
  | 0x010D => 112 + 8 * beAt 104 2 x
  | _ => 8 * ceilDiv (264 + beAt 12 4 x) 8

/-- Adds one record to a configuration; or the octet of the field that breaks its table (step 8). -/
def addRecord (type : Nat) (x : Octets) (c : Conf) : Except Nat Conf :=
  match type with
  | 0x0101 => (parsePart x).map (fun r => { c with parts := c.parts ++ [r] })
  | 0x0102 => (parsePort x).map (fun r => { c with ports := c.ports ++ [r] })
  | 0x0103 => (parseLine x).map (fun r => { c with lines := c.lines ++ [r] })
  | 0x0104 => (parseSegment x).map (fun r => { c with windows := c.windows ++ [r] })
  | 0x0105 => (parseBlob x).map (fun r => { c with blobs := c.blobs ++ [r] })
  | 0x0106 => (parseGroup x).map (fun r => { c with groups := c.groups ++ [r] })
  | 0x0107 => (parseProg x).map (fun r => { c with progs := c.progs ++ [r] })
  | 0x0108 => (parseShaper x).map (fun r => { c with shapers := c.shapers ++ [r] })
  | 0x0109 => (parseGate x).map (fun r => { c with gates := c.gates ++ [r] })
  | 0x010A => (parseTime x).map (fun r => { c with time := some r })
  | 0x010B => (parsePower x).map (fun r => { c with power := some r })
  | 0x010C => (parseSpare x).map (fun r => { c with spare := some r })
  | 0x010D => (parseLimits x).map (fun r => { c with limits := c.limits ++ [r] })
  | 0x01F0 => (parseFw x).map (fun r => { c with fw := some r })
  | _ => .error 0

/-! ### Directory: step 7 (R79 to R81) -/

/-- Directory entry i of a container. -/
def dirEntry (img : Octets) (i : Nat) : DirEntry :=
  let o := 320 + 16 * i
  ⟨beAt o 2 img, beAt (o + 2) 2 img, beAt (o + 4) 4 img, beAt (o + 8) 4 img⟩

/-- The key by which directory entries are sorted. -/
def DirEntry.key (d : DirEntry) : Nat := d.type * 65536 + d.inst

/-- One record's own header, type, length and instance against its entry (R80, R81). -/
def recordFormOk (d : DirEntry) (x : Octets) : Bool :=
  x.length == d.length && 8 ≤ d.length && beAt 0 2 x == d.type && zerosAt 2 2 x && beAt 4 4 x == d.length &&
  typeLength d.type x == d.length && ownInst d.type x == d.inst && (typeCount d.type).isSome

/-- Walks the directory: order, placement, padding and each record's form; `prev` is the key before, `pos` the octet after
the last record, `first` the first entry of all. -/
def walkDir (img : Octets) : List (Nat × DirEntry) → Option Nat → Nat → Bool → Checked Nat
  | [], _, pos, _ => .ok pos
  | (i, d) :: r, prev, pos, first => do
    let eo := 320 + 16 * i
    need 7 eo (zerosAt (eo + 12) 4 img)
    need 7 eo (match prev with
      | none => true
      | some k => k < d.key)
    need 7 eo (d.offset % 8 == 0 && pos ≤ d.offset && d.offset - pos ≤ 7 && (!first || d.offset == pos))
    need 7 pos ((slice pos (d.offset - pos) img).all (· == 0xFF))
    need 7 d.offset (recordFormOk d (slice d.offset d.length img))
    walkDir img r (some d.key) (d.offset + d.length) false

/-- Step 7 on a container whose header passed. -/
def checkDirectory (img : Octets) (n len : Nat) : Checked (List DirEntry) := do
  need 7 320 (320 + 16 * n ≤ len)
  let ds := (List.range n).map (dirEntry img)
  let last ← walkDir img ((List.range n).zip ds) none (320 + 16 * n) true
  need 7 last (last == len)
  need 7 320 (recordTypes.all (fun t => match typeCount t with
    | some (lo, hi) => let k := (ds.filter (·.type == t)).length; lo ≤ k && k ≤ hi
    | none => true))
  need 7 320 (ds.any (fun d => d.type == 0x0101 && d.inst == 0))
  .ok ds

/-- Step 8 over a list of records: (type, offset, octets). -/
def parseRecords : List (Nat × Nat × Octets) → Conf → Checked Conf
  | [], c => .ok c
  | (t, o, x) :: r, c =>
    match addRecord t x c with
    | .ok c' => parseRecords r c'
    | .error f => .error ⟨8, o + f, false⟩

/-! ### Step 9 and step 10 -/

/-- The place of a record of a type and instance. -/
def placeOf (ds : List DirEntry) (type inst : Nat) : Nat :=
  ((ds.find? (fun d => d.type == type && d.inst == inst)).map DirEntry.offset).getD 0

/-- Step 9: the FIRMWARE record, at octet `o`, against the vendor key of the boot ROM (R95). -/
def checkFirmware (vendorHash : BitVec 384) (o : Nat) (c : Conf) : Checked Unit :=
  match c.fw with
  | none => .error ⟨9, o, false⟩
  | some f => do
    need 9 (o + 16) (beNat (sha384 f.vendorKey) == vendorHash.toNat)
    need 9 (o + 116) (sha384 f.code == f.codeHash)
    need 9 (o + 164) (ecdsaVerify f.vendorKey f.signed f.signature)

/-- Two ranges (first, count) meet. -/
def rangesMeet (a b : Nat × Nat) : Bool := a.2 != 0 && b.2 != 0 && a.1 < b.1 + b.2 && b.1 < a.1 + a.2

/-- Two windows lie in one space and overlap. -/
def windowsOverlap (a b : Window) : Bool :=
  a.kind == b.kind && a.cluster == b.cluster && a.base < b.limit && b.base < a.limit

/-- Two partitions hold a resource of R40 in common. -/
def partsClash (a b : PartRec) : Bool :=
  a.pairs.any (fun q => b.pairs.contains q) || (a.clusterMask &&& b.clusterMask) != 0 ||
  (List.zipWith (fun x y => x &&& y) a.dma b.dma).any (· != 0) ||
  rangesMeet (a.keyFirst, a.keyCount) (b.keyFirst, b.keyCount) ||
  rangesMeet (a.syncFirst, a.syncCount) (b.syncFirst, b.syncCount) ||
  rangesMeet (a.groupFirst, a.groupCount) (b.groupFirst, b.groupCount) ||
  rangesMeet (a.streamFirst, a.streamCount) (b.streamFirst, b.streamCount)

/-- Limits of R40 and R84 for one partition. -/
def partLimitsOk (p : PartRec) : Bool :=
  !(p.part == 0 && p.tenantPrograms) &&
  (p.keyCount == 0 || (64 ≤ p.keyFirst && p.keyFirst + p.keyCount ≤ 4096)) &&
  (p.syncCount == 0 || p.syncFirst + p.syncCount ≤ 16384) &&
  (p.groupCount == 0 || p.groupFirst + p.groupCount ≤ 4096) &&
  (p.streamCount == 0 || p.streamFirst + p.streamCount ≤ 1048576) &&
  p.pairs.eraseDups.length == p.pairs.length

/-- The partition record of a number. -/
def Conf.partOf (c : Conf) (p : Nat) : Option PartRec := c.parts.find? (·.part == p)

/-- The LINE record of a line port. -/
def Conf.lineOf (c : Conf) (m : Nat) : Option LineRec := c.lines.find? (·.port == m)

/-- The PORT record of a local port. -/
def Conf.portOf (c : Conf) (n : Nat) : Option PortRec := c.ports.find? (·.port == n)

/-- The LIMITS record of a partition. -/
def Conf.limitsOf (c : Conf) (p : Nat) : Option LimitsRec := c.limits.find? (·.part == p)

/-- A partition holds a cluster (R40). -/
def PartRec.hasCluster (p : PartRec) (c : Nat) : Bool := p.clusterMask.testBit c && c < 16

/-- A partition holds a sync object, group ID, stream ID or key slot. -/
def PartRec.hasSync (p : PartRec) (i : Nat) : Bool := p.syncFirst ≤ i && i < p.syncFirst + p.syncCount

def PartRec.hasGroup (p : PartRec) (i : Nat) : Bool := p.groupFirst ≤ i && i < p.groupFirst + p.groupCount

def PartRec.hasStream (p : PartRec) (i : Nat) : Bool := p.streamFirst ≤ i && i < p.streamFirst + p.streamCount

/-- Key slots 0 to 63 belong to partition 0 (R40, R84). -/
def PartRec.hasKey (p : PartRec) (i : Nat) : Bool :=
  (p.part == 0 && i < 64) || (p.keyFirst ≤ i && i < p.keyFirst + p.keyCount)

/-- The key slots that the partition's record gives it. -/
def keyRange (p : PartRec) : List Nat := (List.range p.keyCount).map (p.keyFirst + ·)

/-- Octets of one Basalt stack, and of its system region at the top (R86, R87). -/
def stackSize : Nat := 48 * 2 ^ 30

def systemRegion : Nat := 2 ^ 30

/-- A BASALT range touches a system region (R87). -/
def touchesSystem (lo hi : Nat) : Bool :=
  (List.range 6).any (fun s => lo < (s + 1) * stackSize && (s + 1) * stackSize - systemRegion < hi)

/-- A SEGMENT record in its place (R45, R86, R87). -/
def windowOk (c : Conf) (w : Window) : Bool :=
  match c.partOf w.part with
  | none => false
  | some p =>
    w.base < w.limit && w.base % 4096 == 0 && w.limit % 4096 == 0 &&
    (if w.kind == 2 then w.limit ≤ 8 * 2 ^ 20 && p.hasCluster w.cluster
     else if w.kind == 3 then w.limit ≤ 6 * stackSize && !touchesSystem w.base w.limit
     else true)

/-- The KEYBLOB records of a slot, in order of position, and the rules of R88, R89 and R342. -/
def blobsOk (c : Conf) (slot : Nat) : Bool :=
  let bs := c.blobs.filter (·.slot == slot)
  match bs with
  | [] => true
  | b :: _ =>
    (match c.partOf b.part with
     | none => false
     | some p => p.hasKey slot) &&
    bs.map (·.pos) == List.range bs.length && bs.all (fun x => x.usage == b.usage && x.part == b.part) &&
    (b.usage != 2 || bs.length == 1)

/-- A GROUP record in its place (R88, R90, R41). -/
def groupRecOk (c : Conf) (g : GroupRec) : Bool :=
  match c.partOf g.part with
  | none => false
  | some p => p.hasGroup g.group.group && p.weights.getD g.group.slice 0 != 0

/-- The group is within its headroom (R90, R183). -/
def headroomOk (g : GroupDef) : Bool := g.mode != 2 || groupSize g ≤ 2 ^ groupH g

/-- Line die of a line port, as 0 for L0 and 1 for L1 (R15). -/
def lineDie (m : Nat) : Nat := m / 8

/-- Octets of the pool region of a line die (R247). -/
def poolRegion (c : Conf) (ld : Nat) : Nat :=
  ((c.lines.filter (fun l => l.enabled && lineDie l.port == ld)).map (·.reserve)).sum * 2 ^ 20

/-- Octets of BASALT windows on the stacks of a line die. -/
def windowOctets (c : Conf) (ld : Nat) : Nat :=
  let lo := 3 * ld * stackSize
  let hi := (3 * ld + 3) * stackSize
  ((c.windows.filter (·.kind == 3)).map (fun w => min w.limit hi - max w.base lo)).sum

/-- Buffer sizes of the pools of a die (R246, R247). -/
def poolBufSizes (d : Nat) : List Nat := if d < 4 then [256, 1024, 4096, 16384] else [16384, 65536, 1048576]

/-- Buffers of each pool of a die (R246, R247). -/
def poolSizes (c : Conf) (d : Nat) : List Nat :=
  if d < 4 then [16384, 4096, 2048, 1024]
  else
    let r := poolRegion c (d - 4)
    [r / 4 / 16384, r / 4 / 65536, r / 2 / 1048576]

/-- A partition's share of a pool of a die (R93, R82). -/
def Conf.share (c : Conf) (p d pool : Nat) : Nat :=
  match c.limitsOf p with
  | none => 0
  | some l => if d < 4 then l.planeShares.getD (4 * d + pool) 0 else l.lineShares.getD (3 * (d - 4) + pool) 0

/-- Shares of a pool sum to at most its size (R40). -/
def sharesOk (c : Conf) : Bool :=
  (List.range 6).all (fun d => ((poolSizes c d).zipIdx).all (fun q =>
    (c.limits.map (fun l => c.share l.part d q.2)).sum ≤ q.1))

/-- The switch port has a PORT or LINE record. -/
def portAssigned (c : Conf) (sw : Nat) : Bool := if sw < 64 then (c.portOf sw).isSome else (c.lineOf (sw - 64)).isSome

/-- A GATE record in its place (R92). A running GATE record may name a partition that has been released (`live`, R110). -/
def gateOk (c : Conf) (live : Bool) (g : GateRec) : Bool :=
  portAssigned c g.port && (g.entries.map (·.interval)).sum == g.cycle &&
  g.entries.all (fun e => e.owner == 0xFF || (64 ≤ g.port && (match c.partOf e.owner with
    | none => live
    | some p => p.isolated && p.lineMask.testBit (g.port - 64))))

/-- Every line port of an isolated partition carries an entry that it owns (R82, R92). -/
def isolatedOk (c : Conf) (p : PartRec) : Bool :=
  !p.isolated || (List.range 16).all (fun m => !p.lineMask.testBit m ||
    c.gates.any (fun g => g.port == 64 + m && g.entries.any (·.owner == p.part)))

/-- A SHAPER record's depth against the largest cost (R275). -/
def shaperOk (c : Conf) (h : ShaperRec) : Bool :=
  portAssigned c h.port && (if h.port < 64 then 9216 else 9710) + (if h.withOverhead then h.overhead else 0) ≤ h.depth

/-- A LINE record's key slot (R85). -/
def lineOk (c : Conf) (l : LineRec) : Bool :=
  (match c.partOf 0 with
   | none => false
   | some p => p.hasKey l.keySlot) &&
  c.blobs.any (fun b => b.slot == l.keySlot && b.usage == 2)

/-- A PROGRAM record in its place (R91). -/
def progOk (c : Conf) (r : ProgRec) : Bool :=
  match c.partOf r.part with
  | none => false
  | some p => (r.clusters &&& p.clusterMask) == r.clusters

/-- All pairs of members satisfy a test. -/
def allPairs {α : Type} (f : α → α → Bool) : List α → Bool
  | [] => true
  | a :: r => r.all (f a) && allPairs f r

/-- Keys of directory order (R79) of the records of a type that fail a test. -/
def breaking {α : Type} (type : Nat) (inst : α → Nat) (ok : α → Bool) (l : List α) : List Nat :=
  (l.filter (fun a => !(ok a))).map (fun a => type * 65536 + inst a)

/-- Members of a list that fail a test with an earlier member. -/
def meetEarlier {α : Type} (ok : α → α → Bool) (seen : List α) : List α → List α
  | [] => []
  | a :: r => (if seen.all (fun b => ok b a) then [] else [a]) ++ meetEarlier ok (seen ++ [a]) r

/-- Members of a list with which the members up to them no longer pass a test of the whole. -/
def overRun {α : Type} (ok : List α → Bool) (l : List α) : List α :=
  (l.zipIdx.filter (fun q => !(ok (l.take (q.2 + 1))))).map Prod.fst

/-- Instances of windows, key blobs, programs and shapers (R81). -/
def Window.inst (w : Window) : Nat := 16 * w.part + w.index

def KeyBlobRec.inst (b : KeyBlobRec) : Nat := 16 * (b.slot - 64) + b.pos

def ProgRec.inst (r : ProgRec) : Nat := 256 * r.part + r.index

def ShaperRec.inst (h : ShaperRec) : Nat := 8 * h.port + h.cls

/-- The context-cache shares of each line die fit (R40). -/
def cachesOk (l : List PartRec) : Bool := [0, 1].all (fun d => decide ((l.map (fun p => p.cache.getD d 0)).sum ≤ 65536))

/-- The pool regions and BASALT windows of each line die fit its stacks (R86). -/
def stacksOk (c : Conf) : Bool := [0, 1].all (fun d => decide (poolRegion c d + windowOctets c d ≤ 141 * 2 ^ 30))

/-- The records that break a cross-record rule of step 10, by key of directory order (R79, R99). Of two records that clash, the later
breaks it; of several whose sum is too large, those from which on it is (DESIGN CHOICE, log entry 29). `awaiting` are the former
resources of partitions whose scrub is not complete; they count as held against every other partition (R60, R111). `live` tells a
running configuration from an image. -/
def crossBreaks (c : Conf) (live : Bool) (awaiting : List (PartRec × List Window)) : List Nat :=
  breaking 0x0101 PartRec.part (fun p => partLimitsOk p && awaiting.all (fun h => h.1.part == p.part || !partsClash p h.1) &&
    p.pairs.all (fun q => (c.portOf q.1).isSome) && isolatedOk c p) c.parts ++
  breaking 0x0101 PartRec.part (fun _ => false) (meetEarlier (fun a b => !partsClash a b) [] c.parts ++ overRun cachesOk c.parts) ++
  breaking 0x0103 LineRec.port (lineOk c) c.lines ++
  breaking 0x0103 LineRec.port (fun _ => false) (overRun (fun l => stacksOk { c with lines := l, windows := [] }) c.lines) ++
  breaking 0x0104 Window.inst (fun w => windowOk c w &&
    awaiting.all (fun h => h.2.all (fun v => v.part == w.part || !windowsOverlap w v))) c.windows ++
  breaking 0x0104 Window.inst (fun _ => false) (meetEarlier (fun a b => a.part == b.part || !windowsOverlap a b) [] c.windows ++
    overRun (fun l => stacksOk { c with windows := l }) c.windows) ++
  breaking 0x0105 KeyBlobRec.inst (fun b => blobsOk c b.slot) c.blobs ++
  breaking 0x0106 (fun g => g.group.group) (fun g => groupRecOk c g && headroomOk g.group) c.groups ++
  breaking 0x0107 ProgRec.inst (progOk c) c.progs ++ breaking 0x0108 ShaperRec.inst (shaperOk c) c.shapers ++
  breaking 0x0109 GateRec.port (gateOk c live) c.gates ++
  breaking 0x010B (fun _ => 0) (fun w => !(w.deepest == 4 && !w.standby)) c.power.toList ++
  breaking 0x010D LimitsRec.part (fun l => (c.partOf l.part).isSome && l.limits.all (fun e => portAssigned c e.1)) c.limits ++
  breaking 0x010D LimitsRec.part (fun _ => false) (overRun (fun l => sharesOk { c with limits := l }) c.limits)

/-- Step 10: the cross-record rules. -/
def crossOk (c : Conf) (live : Bool) (awaiting : List (PartRec × List Window)) : Bool := (crossBreaks c live awaiting).isEmpty

/-- The first record that breaks step 10 is a group past its headroom (R90). -/
def crossOverflow (c : Conf) (live : Bool) (awaiting : List (PartRec × List Window)) : Bool :=
  match (crossBreaks c live awaiting).min? with
  | none => false
  | some k => c.groups.any (fun g => 0x0106 * 65536 + g.group.group == k && groupRecOk c g && !(headroomOk g.group))

/-- Step 10 of R99: it fails at the first record, in directory order, that breaks a rule. -/
def checkCross (ds : List DirEntry) (c : Conf) : Checked Unit :=
  match (crossBreaks c false []).min? with
  | none => .ok ()
  | some k => .error ⟨10, placeOf ds (k / 65536) (k % 65536), crossOverflow c false []⟩

/-! ### Container header: steps 2 to 5 (R78) -/

/-- Fields of a container header. -/
structure SlateHeader where
  length : Nat
  version : Nat
  count : Nat
  bound : Bool
  uid : Nat
  digest : Octets
  key : Octets
  deriving DecidableEq, Repr, Inhabited

/-- Reads a header. -/
def slateHeader (x : Octets) : SlateHeader :=
  { length := beAt 8 4 x, version := beAt 12 4 x, count := beAt 16 4 x, bound := bitOf (beAt 20 2 x) 0, uid := beAt 24 8 x,
    digest := slice 32 48 x, key := slice 80 97 x }

/-- Steps 2 to 5 of R99 on the 320 header octets. `owner` is the hash in the active owner fuse slot, none when unbound. -/
def checkHeader (owner : Option (BitVec 384)) (uid : Nat) (x : Octets) : Checked SlateHeader := do
  let h := slateHeader x
  need 2 0 (x.length ≥ 320 && beAt 0 4 x == 0x534C4154)
  need 2 4 (beAt 4 2 x == 1)
  need 2 6 (beAt 6 2 x == 320)
  need 2 8 (336 ≤ h.length && h.length ≤ 62914560)
  need 2 16 (1 ≤ h.count && h.count ≤ 131072)
  need 2 20 (beAt 20 2 x < 2)
  need 2 22 (zerosAt 22 2 x)
  need 2 24 (h.bound || h.uid == 0)
  need 2 177 (zerosAt 177 3 x)
  need 2 180 (zerosAt 180 2 x)
  need 2 188 (zerosAt 188 36 x)
  need 3 80 (match owner with
    | none => false
    | some k => beNat (sha384 h.key) == k.toNat)
  need 4 224 (ecdsaVerify h.key (slice 0 224 x) (slice 224 96 x))
  need 5 24 (!h.bound || h.uid == uid)
  .ok h

/-- Steps 6 to 10 of R99 on an image whose header passed. -/
def checkBody (vendorHash : BitVec 384) (h : SlateHeader) (img : Octets) : Checked (Conf × List DirEntry) := do
  need 6 32 (sha384 (slice 320 (h.length - 320) img) == h.digest)
  let ds ← checkDirectory img h.count h.length
  let c ← parseRecords (ds.map (fun d => (d.type, d.offset, slice d.offset d.length img))) .empty
  checkFirmware vendorHash (placeOf ds 0x01F0 0) c
  checkCross ds c
  .ok (c, ds)

/-- Steps 1 to 10 of R99 on an image with the digest of its commit record. -/
def checkImage (owner : Option (BitVec 384)) (uid : Nat) (vendorHash : BitVec 384) (digest img : Octets) :
    Checked (Conf × List DirEntry) := do
  need 1 0 (sha384 img == digest)
  let h ← checkHeader owner uid (slice 0 320 img)
  need 2 8 (h.length == img.length)
  checkBody vendorHash h img

/-! ### Commit records (R96, R97) -/

/-- A commit record. -/
structure Commit where
  slot : Nat
  seq : Nat
  length : Nat
  digest : Octets
  deriving DecidableEq, Repr, Inhabited

/-- Reads a commit record from a 128-octet position; none when it is not valid (R97). -/
def parseCommit (x : Octets) : Option Commit := do
  okIf (beAt 0 4 x == 0x434D4954 && octetAt 4 x < 2 && zerosAt 5 3 x && zerosAt 20 4 x && zerosAt 72 4 x &&
    beAt 76 4 x == crcOf crc32c (slice 0 76 x))
  some ⟨octetAt 4 x, beAt 8 8 x, beAt 16 4 x, slice 24 48 x⟩

/-- The 80 octets of a commit record (R96). -/
def commitBytes (c : Commit) : Octets :=
  let b := beBytes 4 0x434D4954 ++ beBytes 1 c.slot ++ zeros 3 ++ beBytes 8 c.seq ++ beBytes 4 c.length ++ zeros 4 ++
    c.digest ++ zeros 4
  b ++ beBytes 4 (crcOf crc32c b)

/-! ### Reload records (R109, R110) -/

/-- Splits embedded records in the form of R80: each starts at a multiple of 8 octets, with 0xFF padding between two and none
after the last (R79, R109); `fuel` records at most. -/
def splitRecords : Nat → Octets → Option (List (Nat × Octets))
  | _, [] => some []
  | 0, _ => none
  | n + 1, x =>
    let l := beAt 4 4 x
    let pad := 8 * ceilDiv l 8
    if l < 8 || x.length < l || (x.length != l && (x.length ≤ pad || (slice l (pad - l) x).any (· != 0xFF))) then none
    else (splitRecords n (x.drop pad)).map (fun r => (beAt 0 2 x, slice 0 l x) :: r)

/-- The records of one partition removed from a configuration: what a reload replaces (R110). -/
def Conf.without (c : Conf) (p : Nat) : Conf :=
  { c with parts := c.parts.filter (·.part != p), windows := c.windows.filter (·.part != p),
           blobs := c.blobs.filter (·.part != p), groups := c.groups.filter (·.part != p),
           progs := c.progs.filter (·.part != p), limits := c.limits.filter (·.part != p) }

/-- A configuration with a reload's records in place. -/
def Conf.merge (c : Conf) (p : Nat) (n : Conf) : Conf :=
  let b := c.without p
  { b with parts := b.parts ++ n.parts, windows := b.windows ++ n.windows, blobs := b.blobs ++ n.blobs,
           groups := b.groups ++ n.groups, progs := b.progs ++ n.progs, limits := b.limits ++ n.limits }

end Sys2Proof.Machine
end

