-- ==== Sys2Proof/Machine/MgmtRecords.lean ====
section
/-! DEFINITION. The plain data of the management side that State holds: Quartz (14), start and reset (15), Slate flash
(03), fuses and debug (02), key store (13), partners and Tocsin (16), power (17), events and mailbox (18, 19). -/

namespace Sys2Proof.Machine

/-! ### Quartz (R358 to R377) -/

/-- Quartz, its servo, its comparators and its two challenges. -/
structure Quartz where
  /-- 48-bit seconds count (R358). -/
  secs : Nat
  /-- Nanoseconds, 0 to 999,999,999 (R358). -/
  ns : Nat
  /-- 28-bit fraction of a nanosecond (R358). -/
  frac : Nat
  /-- 32-bit addend, 2^−28 ns per KCLK cycle (R359). -/
  addend : Nat
  /-- SET state (R361). -/
  set : Bool
  /-- OSC flag (R362). -/
  osc : Bool
  /-- Integral term i, parts per 10^9 (R367). -/
  integral : Int
  /-- Proportional term p, parts per 10^9 (R367). -/
  prop : Int
  /-- Remaining offset r in 2^−28 ns (R364, R365). -/
  slew : Int
  /-- Servo in TRACKING rather than HOLDOVER (R368). -/
  tracking : Bool
  /-- Time of the last accepted PPS_IN edge, in half nanoseconds of Quartz time (R368). -/
  lastEdge : Option Int
  /-- PPS_LAST_E (R377). -/
  lastE : Int
  /-- Target (seconds, ns) of a TIME_SET that waits for a PPS_IN edge (R364). -/
  pendingSet : Option (Nat × Nat)
  /-- Targets (seconds, ns) of the 16 time comparators; none while not armed (R375). -/
  comparators : List (Option (Nat × Nat))
  /-- Targets with which the comparators are armed anew, or disarmed, from the next KCLK cycle in which the old target does not
  fire (R376). -/
  arming : List (Option (Option (Nat × Nat)))
  /-- PPS_OUT high (R370). -/
  ppsOut : Bool
  /-- TIME_SET challenge not yet used, with the Quartz second and ns at which it expires (R363). -/
  timeChallenge : Option (Octets × Nat × Nat)
  /-- Debug challenge not yet used, with the Quartz second and ns at which it expires (R72). -/
  debugChallenge : Option (Octets × Nat × Nat)
  deriving DecidableEq, Repr, Inhabited

/-! ### Start and reset (R378 to R397) -/

/-- Where the device is between power and Ready. -/
inductive Phase where
  /-- No start has begun since VDD_KEEP rose, or reset has ended: the conditions of R378 are awaited. -/
  | waiting
  /-- A start is in stage n (R379). -/
  | stage (n : Nat)
  /-- Reset is held (R393). -/
  | held
  /-- Ready reached, data service (R390, R397). -/
  | ready
  /-- Visibility service only (R396). -/
  | visibility
  deriving DecidableEq, Repr, Inhabited

/-- Reset kinds; codes 1, 2 and 3 of R478 (R391). -/
inductive ResetKind where
  | powerOn | cold | warm
  deriving DecidableEq, Repr, Inhabited

/-- The retention record (R329, R350, R382, R395): kept over warm and cold reset. -/
structure Retention where
  /-- a_last (R329). -/
  aLast : Nat
  /-- Start count (R350). -/
  starts : Nat
  /-- Root PLL that served last (R382). -/
  pll : Option Nat
  /-- CMAC over the record under slot 4 (R329, R350). -/
  mac : Octets
  deriving DecidableEq, Repr, Inhabited

/-- A committed slot that a start may boot (R97, R99). -/
structure Candidate where
  dev : Nat
  slot : Nat
  seq : Nat
  length : Nat
  digest : Octets
  deriving DecidableEq, Repr, Inhabited

/-- Start, reset and the status block's facts (R379 to R397, R445, R446). -/
structure Boot where
  phase : Phase
  /-- Pins and watches: VDD_KEEP good, rails outside limits, PWRGOOD, REFCLK running, RESET_N high (R378). -/
  keepGood : Bool
  badRails : List Rail
  pwrgood : Bool
  refclk : Bool
  resetN : Bool
  /-- Kind and trigger (R478) of the reset that the next start follows. -/
  kind : ResetKind
  trigger : Nat
  retention : Retention
  /-- Candidates still to be tried, best first (R99, R381). -/
  cands : List Candidate
  /-- Booted image: device, slot, commit sequence; header, directory; none when the boot-ROM program serves. -/
  image : Option Candidate
  header : Octets
  directory : List DirEntry
  /-- Image version of the running image (R109). -/
  version : Nat
  /-- CMAC under slot 5 over the on-die copy of digest and directory (R350, R111). -/
  imageMac : Octets
  /-- Boot-ROM program serves (R77, R414). -/
  bootrom : Bool
  /-- Missing unit kind of the last SERVICE event (R445). -/
  serviceCause : Nat
  /-- Root PLL that serves, and the two that failed (R382, R445). -/
  pllSel : Nat
  /-- The PLL that stage 3 has locked, for the retention record (R382). -/
  pllLocked : Option Nat
  pllFailed : List Bool
  /-- Laser inputs in use (R385). -/
  lasers : List Nat
  /-- Dies in the service set (R386). -/
  dies : List Nat
  /-- Wavelengths in use of each of the 30 bundles (R19, R446). -/
  bundles : List Nat
  /-- Local ports out of service; line ports disabled or retired; stacks retired (R445). -/
  localOff : List Nat
  lineOff : List Nat
  /-- Those of them that a start disabled, so that their reserves no longer count: for want of lanes or of room for the pools (R28,
  R247, R387). -/
  lineDisabled : List Nat
  stackOff : List Nat
  /-- Logical cipher cores of L0 and L1 in service (R28). -/
  cipher : List Nat
  /-- Spares left: unit kind k of die d at 8d + k (R446). -/
  spares : List Nat
  /-- Repair map of the SRAM arrays, and dies out of service for an array of theirs (R383). -/
  repairs : List SramRepair
  dieOff : List Nat
  /-- Spares of a cluster left: matrix engines, Tabor cores (R28). -/
  engineSpares : List Nat
  coreSpares : List Nat
  /-- Partitions to enter HALTED at Ready (R389). -/
  halted : List Nat
  /-- Firmware restarts since start, and the Quartz seconds of the latest (R414). -/
  fwRestarts : Nat
  fwTimes : List Nat
  /-- KCLK cycle of the last write of the watchdog register. -/
  fwWatch : Nat
  /-- The core pair is being restarted: the firmware that runs again has not written the watchdog register yet (R414, R415). -/
  fwDown : Bool
  deriving DecidableEq, Repr, Inhabited

/-! ### Slate flash (R76 to R108) -/

/-- A Slate flash device with what the Doldex knows of it. -/
structure FlashDev where
  /-- Passed discovery (R76). -/
  works : Bool
  /-- Its SFDP table reports erase suspend (R76, R108). -/
  suspends : Bool
  /-- Octets that are not 0xFF, by address (R77). -/
  cells : List Host.Cell
  /-- A program in progress: where and which octets its end writes (R104, R108). -/
  rest : Option (Nat × Octets)
  /-- A slot erase in progress (R102, R108). -/
  erasing : Bool
  /-- Critical log: next sequence and next position (R107). -/
  logSeq : Nat
  logPos : Nat
  deriving DecidableEq, Repr, Inhabited

/-- How far an image update is (R102). -/
inductive UpdateStage where
  | erasing | receiving | programming | commit0 | commit1 | copying
  deriving DecidableEq, Repr, Inhabited

/-- An image update or a background copy (R102 to R105). -/
structure Update where
  stage : UpdateStage
  /-- The background copy of R105 rather than an operator's update. -/
  background : Bool
  /-- Tocsin session and port that its latest record came by; none for one that firmware placed itself. -/
  via : Option (Nat × Nat)
  length : Nat
  /-- Container octet expected next (R103). -/
  next : Nat
  /-- Device and target slot written first, and second where there is one. -/
  dev : Nat
  slot : Nat
  second : Option (Nat × Nat)
  /-- Commit sequence (R102 step 4) and digest of the image, once committed. -/
  seq : Nat
  digest : Octets
  /-- Its commit has erased sector C0 (R98). -/
  c0Erased : Bool
  deriving DecidableEq, Repr, Inhabited

/-- The Slate flash side: both devices, the update, and the critical log's rate limit (R108). -/
structure Flash where
  devs : List FlashDev
  update : Option Update
  /-- Critical entries waiting to be written (R108). -/
  waiting : List LogWait
  /-- Quartz seconds and ns of the entries accepted in the last minute, and the number suppressed since. -/
  recent : List Nat
  suppressed : Nat
  deriving DecidableEq, Repr, Inhabited

/-! ### Owner slots, debug, JTAG (R67 to R73) -/

/-- What the factory fixes for one device and nothing changes: the device unique identifier in the ID block's fuses (R444), the root
key that the key store controller alone reads (R350), the SHA-384 hash of the vendor key in the boot ROM (R36). -/
structure Fixed where
  uid : BitVec 64
  rootKey : BitVec 256
  vendorKeyHash : BitVec 384
  /-- Latency in half ns between the reference plane of switch port n and its capture circuit: 2n on receive, 2n + 1 on transmit,
  held in fuses (R371). -/
  latency : List Int
  deriving DecidableEq, Repr, Inhabited

/-- An owner fuse slot (R70). -/
inductive OwnerSlot where
  | blank
  | valid (hash : BitVec 384)
  | void
  deriving DecidableEq, Repr, Inhabited

/-- The JTAG port (R71): bypass bit, boundary cells captured and preloaded, pins driven by EXTEST. -/
structure Jtag where
  /-- Instruction in force: 0 BYPASS, 1 IDCODE, 2 SAMPLE/PRELOAD, 3 EXTEST. -/
  ir : Nat
  bypass : Bool
  /-- Boundary-scan register, cell nearest TDO first. -/
  boundary : List Bool
  /-- Update latches that EXTEST drives onto the pins; none while no EXTEST is in force. -/
  driven : Option (List Bool)
  deriving DecidableEq, Repr, Inhabited

/-! ### Key store (R328 to R357) -/

/-- The key store controller and the entropy source. -/
structure KeyStore where
  /-- Derived keys of slots 0 to 7 that are held (R350): slot and key. -/
  derived : List (Nat × Octets)
  /-- Slots 64 and above that hold or have held a magazine (R340). -/
  slots : List KeySlot
  /-- Times that Knell has emptied every slot since start: the generation of a slot that has held nothing yet (R340, R351). -/
  knells : Nat
  /-- Blocks of invocations granted to line dies (R339). -/
  blocks : List KeyBlock
  ent : EntState
  /-- Retests failed in a row (R354). -/
  retestFails : Nat
  drbg : Option DrbgState
  /-- Bulk messages in the line dies' cipher cores, in order (R331). -/
  bulk : List BulkJob
  nextBulk : Nat
  /-- Slot 7 while it is activated: activation index and invocations used (R329, R350). -/
  partner : Option (Nat × Nat)
  deriving DecidableEq, Repr, Inhabited

/-! ### Partners (R398 to R411) -/

/-- What a mirror operation in progress waits for. -/
inductive MirrorStage where
  /-- Both commit copies are being read (R405 step 2). -/
  | commits
  /-- Dirty pages are being sealed and written (R405 step 3). -/
  | pages
  /-- The partition record is being sealed and written (R405 step 4). -/
  | record
  /-- Commit copy 0, then copy 1, is being written (R405 step 5). -/
  | copy0
  | copy1
  /-- A probe of the commit copies by a LAGGING or HELD_BACK partition (R406, R408). -/
  | probe
  /-- A restore reads the commit, the record and the pages (R410). -/
  | restoreCommit
  | restoreRecord
  | restorePages
  deriving DecidableEq, Repr, Inhabited

/-- A commit record's fields (R404). -/
structure MirrorCommitRec where
  half : Nat
  seq : Nat
  uid : Nat
  step : Nat
  pages : Nat
  length : Nat
  deriving DecidableEq, Repr, Inhabited

/-- The partition record opened by a restore (R403, R411): step number, group ID with peal base and definition body, sync
objects with their values, the bitmap, and the sender's identifier. -/
structure RestoredState where
  step : Nat
  groups : List (Nat × Nat × Octets)
  syncs : List (Nat × Nat)
  bitmap : List Bool
  sender : Nat
  deriving DecidableEq, Repr, Inhabited

/-- A mirror job of a partition: stage, operations not yet answered by number, octets read by number, pages to go. -/
structure MirrorJob where
  stage : MirrorStage
  left : List Nat
  /-- Operations sent so far by this job. -/
  issued : Nat
  reads : List (Nat × Octets)
  /-- Pages not yet sealed, or not yet read and opened; the page in hand first. -/
  pages : List Nat
  /-- Pages sent so far (R405 step 6). -/
  sent : List Nat
  /-- The commit that counts (R405 step 2, R410). -/
  commit : Option MirrorCommitRec
  /-- The partition record of a restore. -/
  record : Option RestoredState
  /-- Octets of the sealed record (R404). -/
  length : Nat
  failed : Bool
  deriving DecidableEq, Repr, Inhabited

/-- Mirroring of one partition (R401 to R411). -/
structure Mirror where
  part : Nat
  /-- Dirty pages (R401). -/
  dirty : List Nat
  /-- Slot that holds each page, by the committed bitmap (R403). -/
  bitmap : List Bool
  /-- Sequence last committed by this Doldex; 0 for none. -/
  seq : Nat
  /-- Half that the commit names (R405 step 4). -/
  half : Nat
  /-- Sequence and bitmap of a commit whose copy 0 was sent and that was not completed: it may count (R404, R405). -/
  tried : Option (Nat × List Bool)
  job : Option MirrorJob
  staged : Option RestoredState
  /-- The partner has answered a probe (R406, R408). -/
  probed : Bool
  deriving DecidableEq, Repr, Inhabited

/-! ### Tocsin and the mailbox (R416 to R421, R458 to R461) -/

/-- A Tocsin session, forming or open (R420, R421). -/
structure Session where
  id : Nat
  isOpen : Bool
  serial : Nat
  notAfter : Nat
  opKeyPoint : Octets
  hello : Octets
  challenge : Octets
  opKey : Octets
  opSalt : Octets
  devKey : Octets
  devSalt : Octets
  /-- Last sequence accepted, and last sequence sent. -/
  rxSeq : Nat
  txSeq : Nat
  /-- Record in assembly: its length and the octets so far (R459). -/
  assembling : Option (Nat × Octets)
  deriving DecidableEq, Repr, Inhabited

/-- The Tocsin ports. -/
structure Tocsin where
  /-- Link of MGMT0 and MGMT1 (R418). -/
  links : List Bool
  /-- HEARTBEAT sequence of each port (R418). -/
  beats : List Nat
  sessions : List Session
  /-- Sessions formed so far, for the free choice of IDs. -/
  formed : Nat
  deriving DecidableEq, Repr, Inhabited

/-- A record on its way to the mailbox, with the session and port its reply goes to; session 0 for the clear record of
R461, none for a record that firmware placed itself. -/
structure MailIn where
  via : Option (Nat × Nat)
  octets : Octets
  deriving DecidableEq, Repr, Inhabited

/-- The command mailbox (R458). -/
structure Mailbox where
  /-- Records completely received, in order, not yet passed to the mailbox. -/
  queue : List MailIn
  /-- Record whose reply is awaited. -/
  current : Option MailIn
  status : Nat
  reply : Octets
  /-- LENGTH, and the record buffer's octets that are not 0. -/
  length : Nat
  buffer : List Host.Cell
  deriving DecidableEq, Repr, Inhabited

/-! ### Events and Snare (R437, R438, R63) -/

/-- The event ring, its queue and its indices. -/
structure EventLog where
  queue : List EvWait
  /-- Entries by sequence; the latest 65,536. -/
  ring : List (Nat × EvEntry)
  writeSeq : Nat
  readSeq : Nat
  lost : Nat
  deriving DecidableEq, Repr, Inhabited

/-- A Snare sample (R63). -/
structure Sample where
  port : Nat
  received : Bool
  secs : Nat
  ns : Nat
  part : Nat
  octets : Octets
  deriving DecidableEq, Repr, Inhabited

/-! ### Power (R423 to R432, R473) -/

/-- A plane or the device: state 0 A0, 3 A3, 4 Watch; target while entering; waking; wake cause pending (R428). -/
structure PowerState where
  state : Nat
  entering : Option Nat
  waking : Bool
  cause : Bool
  deriving DecidableEq, Repr, Inhabited

/-- The power unit. -/
structure Power where
  planes : List PowerState
  device : PowerState
  /-- Wake cause pending for an entering cluster (R428). -/
  clusterCause : List Nat
  /-- Cause of the throttle period: by temperature (R432, R478). -/
  throttle : Option Bool
  thermN : Bool
  deriving DecidableEq, Repr, Inhabited

/-! ### What leaves the device -/

/-- Everything that leaves the device, in order. -/
inductive Output where
  /-- An Ethernet frame with its FCS on a local port (R116). -/
  | frame (port : Nat) (octets : Octets)
  /-- A basic frame on a line port, scrambled (R278). -/
  | lineFrame (m : Nat) (lanes : List (List Nat))
  /-- A frame on a MGMT port (R416). -/
  | tocsin (port : Nat) (octets : Octets)
  /-- RXD of a serial interface (R293). -/
  | mch (n : Nat) (rxd : Octets)
  /-- Bits on TDO. -/
  | tdo (bits : List Bool)
  deriving DecidableEq, Repr, Inhabited

end Sys2Proof.Machine
end

