-- ==== Sys2Proof/Machine/State.lean ====
section
/-! DEFINITION. The whole machine state, as plain data, and the state the model starts in: power on, nothing bound,
nothing started. -/

namespace Sys2Proof.Machine

/-- The device has no machine stop: every error is a status, a drop with a counter, an event or a change of state
(R11, R12, R128, R440), so no command raises a fault and the type has no constructor. -/
inductive Fault where
  deriving DecidableEq, Repr

/-- Why exec refuses a command. -/
inductive Refusal where
  /-- A command whose meaning is not modelled; raised by its arm of exec alone. Safe: nothing is claimed of it. -/
  | notModelled (mnemonic : String)
  deriving DecidableEq, Repr

/-- The switch core of all dies (09, 10). -/
structure Switch where
  /-- Items offered and not yet gone, in the order of their offer (R248). -/
  items : List Item
  /-- Number of the next item. -/
  nextItem : Nat
  /-- Allocated buffers (R257). -/
  bufs : List Buf
  /-- Buffers whose count has reached 0 and that are not yet pushed, in that order (R259, R264). -/
  pushes : List (Nat × Nat × Nat)
  /-- Pool p of die d at 4d + p (R246, R247). -/
  pools : List Pool
  /-- Queues that hold or have held an entry (R255). -/
  queues : List Queue
  /-- Token buckets of the SHAPER records in force (R273). -/
  buckets : List Bucket
  /-- The 80 outputs. -/
  outs : Vector OutPort 80
  deriving DecidableEq, Repr

/-- Everything the spec gives the device, with the model's own queues. -/
structure State where
  /-- Commands that wait, first in first out: the model's own queue (log entry 5). -/
  pending : List Instr
  /-- Work that one step has passed on to another (95_what_each_step_holds.md, R115 row 9, R321), with the number of the
  accepted descriptor it resumes: the model's own queue (log entry 5). -/
  handed : List (Option Nat × Instr)
  /-- Number of the accepted descriptor that the running command resumes; the model's own field (log entry 5). -/
  resuming : Option Nat
  /-- Number of free values drawn so far: the model's own field (log entry 3). -/
  freeCtr : Nat
  /-- KCLK cycles since VDD_KEEP rose (R30). -/
  cycle : Nat
  /-- What has left the device, oldest first. -/
  out : List Output
  /-- Quartz (R358). -/
  quartz : Quartz
  /-- Start, reset and status (R378, R445). -/
  boot : Boot
  /-- Slate flash (R76). -/
  flash : Flash
  /-- Fuses and boot ROM, fixed for one device (R36, R350, R444). -/
  fixed : Fixed
  /-- Owner fuse slots 0 and 1 (R67). -/
  owner : List OwnerSlot
  /-- Debug scopes unlocked, as in R73 (R72). -/
  debugScope : Nat
  /-- A scope that unlocks when the scrub that a verified token asks for has run (R72). -/
  debugPending : Option Nat
  /-- JTAG port (R71). -/
  jtag : Jtag
  /-- Running configuration (R110). -/
  conf : Conf
  /-- Counters that are not 0 (R433). -/
  ctrs : List (Ctr × Nat)
  /-- Event ring and its queue (R437). -/
  events : EventLog
  /-- Samples for the management core (R63). -/
  snare : List Sample
  /-- Local ports (R114). -/
  ports : Vector LocalPortState 64
  /-- Switch core (R246). -/
  sw : Switch
  /-- Line ports (R278). -/
  lines : Vector LinePortState 16
  /-- Descriptors accepted and not completed, in order of acceptance (R126). -/
  descs : List Desc
  nextDesc : Nat
  /-- Node operations not answered (R130). -/
  nodeOps : List NodeOp
  /-- Sync objects whose value is not 0 (R135). -/
  syncs : List (Nat × Nat)
  /-- Pending WAIT_GEs, in order of arrival (R136). -/
  waits : List SyncWait
  /-- Partitions (R43). -/
  parts : Vector PartState 64
  /-- Defined groups (R144). -/
  groups : List Group
  /-- Carillon slices (R14). -/
  slices : Vector Slice 4
  /-- Accesses in pieces (R170, R215). -/
  xfers : List Xfer
  nextXfer : Nat
  /-- Program store (R217). -/
  progs : List ProgImage
  nextLoad : Nat
  /-- Invocations accepted and not ended (R221). -/
  invs : List Invocation
  nextInv : Nat
  /-- Tabor cores (R195). -/
  cores : Vector Core 256
  /-- Clusters (R14). -/
  clusters : Vector Cluster 16
  /-- Matrix engines (R216). -/
  engines : Vector Engine 64
  /-- TENSOR_LOADs of the memory-side expanders of L0 and L1, in order (R244). -/
  expanders : List (List TensorJob)
  /-- Basalt octets that are not 0 (R86). -/
  basalt : List Host.Cell
  /-- Stream contexts that are not IDLE or hold state (R300). -/
  ctxs : List Ctx
  /-- Entries of the stream-context caches, latest first: die, partition, context (R304). -/
  caches : List (Nat × Nat × CtxKey)
  /-- Remote operations from the line that run here (R321). -/
  remoteOps : List RemoteOp
  nextRemote : Nat
  /-- Key store, entropy source and DRBG (R328). -/
  keys : KeyStore
  /-- Mirroring of tenant partitions (R401). -/
  mirrors : List Mirror
  /-- Quartz time in ns at which the partner last answered (R418). -/
  partnerAnswer : Option Nat
  /-- Tocsin ports and sessions (R416). -/
  tocsin : Tocsin
  /-- Command mailbox (R458). -/
  mail : Mailbox
  /-- Power states (R423). -/
  power : Power
  deriving DecidableEq, Repr

/-! ### State after VDD_KEEP rises -/

/-- Quartz at power-up: 0 s, 0 ns, UNSET, the addend of c = 0 (R361, R449). -/
def Quartz.reset : Quartz :=
  { secs := 0, ns := 0, frac := 0, addend := 0xA0000000, set := false, osc := false, integral := 0, prop := 0, slew := 0,
    tracking := false, lastEdge := none, lastE := 0, pendingSet := none, comparators := List.replicate 16 none, arming := List.replicate 16 none,
    ppsOut := false, timeChallenge := none, debugChallenge := none }

/-- Before the first start: the conditions of R378 hold, no image, nothing known of the units (R445: every field 0). -/
def Boot.reset : Boot :=
  { phase := .waiting, keepGood := true, badRails := [], pwrgood := true, refclk := true, resetN := true,
    kind := .powerOn, trigger := 1, retention := ⟨0, 0, none, []⟩, cands := [], image := none, header := [], directory := [],
    version := 0, imageMac := [], bootrom := false, serviceCause := 0, pllSel := 0, pllLocked := none, pllFailed := [false, false],
    lasers := [], dies := [], bundles := List.replicate 30 0, localOff := [], lineOff := [], lineDisabled := [], stackOff := [],
    cipher := [0, 0], spares := List.replicate 48 0, repairs := [], dieOff := [],
    engineSpares := List.replicate 16 0,
    coreSpares := List.replicate 16 0, halted := [], fwRestarts := 0, fwTimes := [],
    fwWatch := 0, fwDown := false }

/-- A flash device with every octet erased (log entry 6). -/
def FlashDev.reset : FlashDev := ⟨false, false, [], none, false, 0, 0⟩

/-- A local port before any link. -/
def LocalPortState.reset : LocalPortState :=
  { inService := false, linkUp := false, granted := 0, reported := none, staged := 0, stale := 0, inRx := false, rxq := [], rxAt := 0,
    peerGranted := 0, consumed := 0, snareRx := 0, snareTx := 0 }

/-- An empty performance second. -/
def PmSecond.zero : PmSecond := ⟨false, 0, false, 0, false, 0, 0, 0⟩

/-- An empty bin. -/
def PmBin.zero : PmBin := ⟨0, 0, 0, 0, 0, 0, 0, 0, 0, 0, 0, 0, false, false⟩

/-- Monitoring with nothing counted. -/
def PmState.reset : PmState :=
  ⟨{ PmSecond.zero with off := true }, [], false, false, 0, { PmBin.zero with incomplete := true }, { PmBin.zero with incomplete := true }, [], []⟩

/-- A line receiver out of frame, its accepted trace 64 zero octets (R285, R290). -/
def LineRxState.reset : LineRxState :=
  { inFrame := false, order := [], candidate := none, badFas := 0, inMulti := false, lastMfas := none, goodSeq := 0, badSeq := 0,
    expected := 0, bip := none, dlos := false, dlof := false, dlom := false, dtim := false, cur := ⟨[], [], [], false⟩,
    prev := none, otag := [], kep := 0, otagBad := false, lastCounter := none, keys := [], ackCounters := [], trace := List.replicate 64 0,
    tracePeriods := [], chanA := [], chanB := [], slipA := false, slipB := false }

/-- A line transmitter that has sent nothing. -/
def LineTxState.reset : LineTxState :=
  { mfas := 0, bip := 0, bei := 0, bue := 0, otag := [], kep := 0, chA := [], chB := [], nextA := [], nextB := [],
    key := none, used := 0, limit := 0 }

/-- A line port out of service. -/
def LinePortState.reset : LinePortState :=
  { inService := false, tx := .reset, rx := .reset, pm := .reset, sealing := none, late := [], controls := [], retx := [],
    isoEntry := none, isoShort := false, slotAt := 0, snareTx := 0, snareRx := 0 }

/-- A FREE partition. -/
def PartState.reset : PartState :=
  { state := .free, mirror := .none, pairs := [], candPairs := [], candLines := [], step := 0, stepEnd := none,
    nextInvocation := 0, trapSeq := 0, traps := [], hint := none, reload := none, reloadNumber := 0, load := none,
    stagedProgs := [], newWindows := none, scrubbing := [], lostSlices := [],
    inStep := false }

/-- A Carillon slice with every adder group in service. -/
def Slice.reset : Slice := ⟨false, [], [], [], false, []⟩

/-- A free Tabor core. -/
def Core.reset : Core :=
  { inv := none, running := false, pc := 0, regs := Vector.replicate 32 0, imem := [], dmem := [], resident := none,
    hart := 0, windows := Vector.replicate 16 0, statusTrunc := false, statusIndex := false, scount := 0, sscalar := 0,
    sinv := 0, cycles := 0, instret := 0, reserve := none, mcause := 0, mepc := 0, mtval := 0, dmaNext := 0,
    dmaTickets := [], matNext := 0, matTickets := [], matOpen := [], stall := .none, faulty := false }

/-- An idle cluster. -/
def Cluster.reset : Cluster :=
  { retired := false, scratch := [], streamQ := [], dmaQ := [], waiting := [], cvHolder := none, cvWaiting := [],
    cvAlg := 0, cvReg := 0, cvBusy := false, faulty := false, cvFaulty := false, power := 0, entering := none, waking := false }

/-- An empty pool: no size until a start places it. -/
def Pool.reset : Pool := ⟨0, 0, [], 0, [], 0⟩

/-- A pool of n buffers, all free. -/
def Pool.full (size n : Nat) : Pool := ⟨size, n, [], 0, [], n⟩

/-- The switch core with nothing in it: the planes' pools have the sizes that no image changes, and those of the line dies wait for
the reserves of one (R246, R247). -/
def Switch.reset : Switch :=
  { items := [], nextItem := 0, bufs := [], pushes := [],
    pools := (List.range 24).map (fun i => Pool.full ((poolBufSizes (i / 4)).getD (i % 4) 0) ((poolSizes Conf.empty (i / 4)).getD (i % 4) 0)),
      queues := [], buckets := [],
    outs := Vector.replicate 80 ⟨[], [], [], 0⟩ }

/-- A key store with no key and no DRBG. -/
def KeyStore.reset : KeyStore :=
  { derived := [], slots := [], knells := 0, blocks := [], ent := .healthy, retestFails := 0, drbg := none, bulk := [],
    nextBulk := 0, partner := none }

/-- A unit in A0. -/
def PowerState.run : PowerState := ⟨0, none, false, false⟩

/-- All units in A0. -/
def Power.reset : Power := ⟨List.replicate 4 .run, .run, [], none, false⟩

/-- The machine right after VDD_KEEP rises with the conditions of R378 holding: nothing has started (log entry 6). -/
def State.reset : State :=
  { pending := [], handed := [], resuming := none, freeCtr := 0, cycle := 0, out := [], quartz := .reset, boot := .reset,
    flash := ⟨[.reset, .reset], none, [], [], 0⟩, fixed := ⟨Config.uid, Config.rootKey, Config.vendorKeyHash, (List.range 160).map Config.portLatency⟩,
    owner := [.blank, .blank], debugScope := 0, debugPending := none,
    jtag := ⟨0, false, [], none⟩, conf := .empty, ctrs := [],
    events := ⟨[], [], 0, 0, 0⟩, snare := [], ports := Vector.replicate 64 .reset, sw := .reset,
    lines := Vector.replicate 16 .reset, descs := [], nextDesc := 0, nodeOps := [], syncs := [], waits := [],
    parts := Vector.replicate 64 .reset, groups := [], slices := Vector.replicate 4 .reset, xfers := [], nextXfer := 0,
    progs := [], nextLoad := 0, invs := [], nextInv := 0, cores := Vector.replicate 256 .reset,
    clusters := Vector.replicate 16 .reset, engines := Vector.replicate 64 ⟨[], false⟩, expanders := [[], []],
    basalt := [], ctxs := [], caches := [], remoteOps := [], nextRemote := 0, keys := .reset, mirrors := [],
    partnerAnswer := none, tocsin := ⟨[false, false], [0, 0], [], 0⟩, mail := ⟨[], none, 0, [], 0, []⟩, power := .reset }

end Sys2Proof.Machine
end

