-- ==== Sys2Proof/Machine/Ops.lean ====
section
/-! DEFINITION. The operations every chapter shares: octets of a memory, counters (R433), events (R437 to R440), Quartz
time, free values, and single-field updates of the indexed units. -/

namespace Sys2Proof.Machine

/-! ### Octets of a memory -/

/-- The octet at an address: `d` where none is listed (R58, R78). -/
def memByte (d : Byte) (m : List Host.Cell) (a : Nat) : Byte :=
  match m with
  | [] => d
  | (k, v) :: r => if k == a then v else memByte d r a

/-- The octets listed at or after `a`, as long as they run on from it. -/
def memCells (m : List Host.Cell) (a n : Nat) : List Host.Cell := m.filter (fun c => decide (a ≤ c.1) && decide (c.1 < a + n))

/-- Octets of a run of `n` addresses from `a`, given its listed cells in order. -/
def memFill (d : Byte) : Nat → Nat → List Host.Cell → Octets
  | 0, _, _ => []
  | n + 1, a, [] => d :: memFill d n (a + 1) []
  | n + 1, a, (k, v) :: r => if k == a then v :: memFill d n (a + 1) r else d :: memFill d n (a + 1) ((k, v) :: r)

/-- `n` octets from address `a`. -/
def memRead (d : Byte) (m : List Host.Cell) (a n : Nat) : Octets := memFill d n a (memCells m a n)

/-- The cells that an octet string makes from address `a`: none for an octet equal to `d`. -/
def cellsOf (d : Byte) : Nat → Octets → List Host.Cell
  | _, [] => []
  | a, b :: r => if b == d then cellsOf d (a + 1) r else (a, b) :: cellsOf d (a + 1) r

/-- The memory after `x` is written from address `a`: the canonical form is kept. -/
def memWrite (d : Byte) (m : List Host.Cell) (a : Nat) (x : Octets) : List Host.Cell :=
  m.filter (fun c => decide (c.1 < a)) ++ cellsOf d a x ++ m.filter (fun c => decide (a + x.length ≤ c.1))

/-- The memory after `n` octets from address `a` return to what an unlisted address reads as (R59 step 5, R98). -/
def memClear (m : List Host.Cell) (a n : Nat) : List Host.Cell :=
  m.filter (fun c => decide (c.1 < a) || decide (a + n ≤ c.1))

/-- Addresses strictly rising. -/
def cellsSorted : List Host.Cell → Bool
  | [] => true
  | [_] => true
  | a :: b :: r => decide (a.1 < b.1) && cellsSorted (b :: r)

/-- The canonical form: addresses strictly rising and no cell equal to `d`. -/
def memWf (d : Byte) (m : List Host.Cell) : Bool := cellsSorted m && m.all (fun c => c.2 != d)

/-! ### Association lists -/

/-- The entry of a key; `z` where there is none. -/
def lookupD {α β : Type} [BEq α] (k : α) (z : β) (l : List (α × β)) : β := (l.lookup k).getD z

/-- The list with the entry of a key set. -/
def setEntry {α β : Type} [BEq α] (k : α) (v : β) : List (α × β) → List (α × β)
  | [] => [(k, v)]
  | p :: r => if p.1 == k then (k, v) :: r else p :: setEntry k v r

/-- The list with the entry of a key set; an entry of value `z` is not listed. -/
def setSparse {α β : Type} [BEq α] [BEq β] (k : α) (v z : β) (l : List (α × β)) : List (α × β) :=
  if v == z then l.filter (fun p => !(p.1 == k)) else setEntry k v l

/-- Apply `f` to the elements that satisfy `p`. -/
def mapWhen {α : Type} (p : α → Bool) (f : α → α) (l : List α) : List α := l.map (fun x => if p x then f x else x)

/-- The n-th element replaced. -/
def setAt {α : Type} (n : Nat) (v : α) (l : List α) : List α := l.set n v

/-- `x` placed before the first element that it goes before. -/
def insertBy {α : Type} (le : α → α → Bool) (x : α) : List α → List α
  | [] => [x]
  | y :: r => if le x y then x :: y :: r else y :: insertBy le x r

/-- A list sorted, equal elements in their order. -/
def sortBy {α : Type} (le : α → α → Bool) (l : List α) : List α := l.foldr (insertBy le) []

/-- A number as an index below n: itself where it is one, else 0; callers give numbers in range. -/
def fin64 (n : Nat) : Fin 64 := Fin.ofNat 64 n
/-- As fin64, below 16. -/
def fin16 (n : Nat) : Fin 16 := Fin.ofNat 16 n
/-- As fin64, below 80. -/
def fin80 (n : Nat) : Fin 80 := Fin.ofNat 80 n
/-- As fin64, below 256. -/
def fin256 (n : Nat) : Fin 256 := Fin.ofNat 256 n
/-- As fin64, below 4. -/
def fin4 (n : Nat) : Fin 4 := Fin.ofNat 4 n

/-! ### Units by number -/

namespace State

/-- Partition p. -/
def part (s : State) (p : Nat) : PartState := s.parts[fin64 p]
/-- Partition p changed by `f`. -/
def updPart (s : State) (p : Nat) (f : PartState → PartState) : State :=
  { s with parts := s.parts.set (fin64 p) (f (s.part p)) }
/-- Local port n. -/
def port (s : State) (n : Nat) : LocalPortState := s.ports[fin64 n]
/-- Local port n changed by `f`. -/
def updPort (s : State) (n : Nat) (f : LocalPortState → LocalPortState) : State :=
  { s with ports := s.ports.set (fin64 n) (f (s.port n)) }
/-- Line port m. -/
def line (s : State) (m : Nat) : LinePortState := s.lines[fin16 m]
/-- Line port m changed by `f`. -/
def updLine (s : State) (m : Nat) (f : LinePortState → LinePortState) : State :=
  { s with lines := s.lines.set (fin16 m) (f (s.line m)) }
/-- Cluster c. -/
def cluster (s : State) (c : Nat) : Cluster := s.clusters[fin16 c]
/-- Cluster c changed by `f`. -/
def updCluster (s : State) (c : Nat) (f : Cluster → Cluster) : State :=
  { s with clusters := s.clusters.set (fin16 c) (f (s.cluster c)) }
/-- Core k. -/
def core (s : State) (k : Nat) : Core := s.cores[fin256 k]
/-- Core k changed by `f`. -/
def updCore (s : State) (k : Nat) (f : Core → Core) : State :=
  { s with cores := s.cores.set (fin256 k) (f (s.core k)) }
/-- Engine e. -/
def engine (s : State) (e : Nat) : Engine := s.engines[fin64 e]
/-- Engine e changed by `f`. -/
def updEngine (s : State) (e : Nat) (f : Engine → Engine) : State :=
  { s with engines := s.engines.set (fin64 e) (f (s.engine e)) }
/-- Slice k. -/
def sliceOf (s : State) (k : Nat) : Slice := s.slices[fin4 k]
/-- Slice k changed by `f`. -/
def updSlice (s : State) (k : Nat) (f : Slice → Slice) : State :=
  { s with slices := s.slices.set (fin4 k) (f (s.sliceOf k)) }
/-- Output o of the switch core. -/
def outPort (s : State) (o : Nat) : OutPort := s.sw.outs[fin80 o]
/-- Output o changed by `f`. -/
def updOut (s : State) (o : Nat) (f : OutPort → OutPort) : State :=
  { s with sw := { s.sw with outs := s.sw.outs.set (fin80 o) (f (s.outPort o)) } }
/-- Flash device d; a device that does not work where there is none. -/
def flashDev (s : State) (d : Nat) : FlashDev := s.flash.devs.getD d FlashDev.reset
/-- Flash device d changed by `f`. -/
def updFlashDev (s : State) (d : Nat) (f : FlashDev → FlashDev) : State :=
  { s with flash := { s.flash with devs := s.flash.devs.set d (f (s.flashDev d)) } }

/-! ### Time, free values, work handed on -/

/-- Quartz time in nanoseconds (R358). -/
def now (s : State) : Nat := s.quartz.secs * 1000000000 + s.quartz.ns

/-- The next free value, and the state after it is drawn (log entry 3). -/
def free (s : State) : BitVec 64 × State := (Config.freeValue s.freeCtr, { s with freeCtr := s.freeCtr + 1 })

/-- `n` free octets, and the state after they are drawn (log entry 3). -/
def freeOctets (s : State) (n : Nat) : Octets × State :=
  ((List.range n).map (fun i => Config.freeOctet (s.freeCtr + i)), { s with freeCtr := s.freeCtr + n })

/-- Pass work on to another step (log entry 5). -/
def hand (s : State) (i : Instr) : State := { s with handed := s.handed ++ [(none, i)] }

/-- Pass an accepted descriptor's command on again (log entry 5). -/
def resume (s : State) (id : Nat) (i : Instr) : State := { s with handed := s.handed ++ [(some id, i)] }

/-- A command handed on unless it stands there already. -/
def handOnce (s : State) (i : Instr) : State := if s.handed.any (fun h => h.1.isNone && h.2 == i) then s else s.hand i

/-- Something leaves the device. -/
def emit (s : State) (o : Output) : State := { s with out := s.out ++ [o] }

/-! ### Events (R437 to R440, R478) -/

/-- Event codes that are critical (R440). -/
def criticalCode (c : Nat) : Bool :=
  [0x0101, 0x0201, 0x0202, 0x0203, 0x0204, 0x0205, 0x0206, 0x0301, 0x0303, 0x0401, 0x0402, 0x0501, 0x0802, 0x0902,
   0x0B01, 0x0B02].contains c

/-- Octets 4 to 31 of a ring entry, little-endian (R437, R439). -/
def entryBody (e : EvEntry) : Octets :=
  leBytes 2 e.code ++ [BitVec.ofNat 8 ((if e.critical then 1 else 0) + (if e.part.isSome then 2 else 0)),
    BitVec.ofNat 8 (e.part.getD 0)] ++ leBytes 8 e.secs ++ leBytes 4 e.ns ++ fitTo 12 0 e.payload

/-- The code and partition by which events of one cycle are ordered (R438). -/
def evOrder (e : EvWait) : Nat × Nat :=
  match e.entries with
  | [] => (0, 0)
  | x :: _ => (x.code, (x.part.map (· + 1)).getD 0)

/-- `a` is written before `b`, both waiting. -/
def evBefore (a b : EvWait) : Bool :=
  a.started || decide (a.cycle < b.cycle) ||
    (a.cycle == b.cycle && (decide ((evOrder a).1 < (evOrder b).1) ||
      ((evOrder a).1 == (evOrder b).1 && decide ((evOrder a).2 ≤ (evOrder b).2))))

/-- Insert an event in the order of R438. -/
def evInsert (x : EvWait) : List EvWait → List EvWait
  | [] => [x]
  | y :: r => if evBefore y x then y :: evInsert x r else x :: y :: r

/-- Entries in the queue of R438. -/
def queued (s : State) : Nat := (s.events.queue.map (fun e => e.entries.length)).sum

/-- The critical entries that wait for the persistent log, at most 64 a minute (R108, R439). -/
def logCritical (s : State) (e : EvEntry) : State :=
  let t := s.now
  let recent := s.flash.recent.filter (fun x => decide (t < x + 60000000000))
  let works := (List.range 2).filter (fun d => (s.flashDev d).works)
  if recent.length < 64 then
    let w : LogWait := ⟨e.secs, e.ns, e.code,
      entryBody e ++ (if s.flash.suppressed == 0 then [] else leBytes 4 s.flash.suppressed), works⟩
    { s with flash := { s.flash with waiting := s.flash.waiting ++ [w], recent := recent ++ [t], suppressed := 0 } }
  else { s with flash := { s.flash with recent := recent, suppressed := s.flash.suppressed + 1 } }

/-- Raise an event whose entries carry the payloads given: it enters the queue whole, or LOST grows (R438). -/
def raiseAll (s : State) (code : Nat) (p : Option Nat) (payloads : List Octets) : State :=
  let es := payloads.map (fun x => (⟨code, criticalCode code, p, s.quartz.secs, s.quartz.ns, x⟩ : EvEntry))
  let s := if criticalCode code then es.foldl logCritical s else s
  if s.queued + es.length ≤ 256 then
    { s with events := { s.events with queue := evInsert ⟨s.cycle, false, es⟩ s.events.queue } }
  else { s with events := { s.events with lost := (s.events.lost + es.length) % 2 ^ 64 } }

/-- Raise an event of one entry; payload octet 0 is the cause (R440, R478). -/
def raise (s : State) (code : Nat) (p : Option Nat) (payload : Octets) : State := s.raiseAll code p [payload]

/-- One octet of a payload. -/
def oct (n : Nat) : Octets := [BitVec.ofNat 8 n]

/-! ### The event ring (R437, R438) -/

/-- One entry is written to the ring; where it takes the place that the read index names, that entry is lost. -/
def ringWrite (s : State) (x : EvEntry) : State :=
  let e := s.events
  let full := serialDiff 32 e.writeSeq e.readSeq == 65536
  let ring := e.ring ++ [(e.writeSeq, x)]
  { s with events := { e with
    ring := if 65536 < ring.length then ring.drop 1 else ring, writeSeq := (e.writeSeq + 1) % 2 ^ 32,
    readSeq := if full then (e.readSeq + 1) % 2 ^ 32 else e.readSeq, lost := if full then (e.lost + 1) % 2 ^ 64 else e.lost } }

/-- The next entry of the queue is written; an event once begun is finished before any other (R438). -/
def drainOne (s : State) : State :=
  match s.events.queue with
  | [] => s
  | w :: r =>
    match w.entries with
    | [] => { s with events := { s.events with queue := r } }
    | x :: xs =>
      let q := if xs.isEmpty then r else { w with started := true, entries := xs } :: r
      ({ s with events := { s.events with queue := q } } : State).ringWrite x

/-- Every entry of the queue is written, as it is before a reset takes effect (R438, R456). -/
def drainAll (s : State) : State := (List.range (s.queued + s.events.queue.length)).foldl (fun s _ => s.drainOne) s

/-! ### Counters (R433 to R436) -/

/-- Counters of the wrapping class, 64 bits wide (R436, R298, R377, R447, R454, R455). -/
def ctrWraps : Ctr → Bool
  | .outCls .. => true
  | .outPort _ _ f => f == 3 || f == 6
  | .line _ _ f => decide (f ≤ 2)
  | .part _ i => i == 9
  | .page _ i => decide (i ≤ 4)
  | .holdNs _ | .creditNs _ | .guardNs _ | .shaperNs .. | .adderCycles _ | .eccCorr _ | .ppsEdges => true
  | _ => false

/-- The value of a counter. -/
def ctr (s : State) (c : Ctr) : Nat := lookupD c 0 s.ctrs

/-- Set or management block, index and partition of COUNTER_SAT for a counter (R478). -/
def ctrPlace (s : State) : Ctr → Nat × Nat × Option Nat
  | .outCls p o c f => (1, 32 * o + 4 * c + f, some p)
  | .outPort p o f => (2, 8 * o + f, some p)
  | .line p m f => (3, 8 * m + f, some p)
  | .die p d f => (4, 16 * d + f, some p)
  | .part p i => (5, i, some p)
  | .groupFlag p g f => (6, 4 * (g - ((s.conf.partOf p).map (·.groupFirst)).getD 0) + f, some p)
  | .progFlag p x f => (6, 4 * ((s.conf.partOf p).map (·.groupCount)).getD 0 + 4 * x + f, some p)
  | .trapCount p => (0xFFFF, 0x00081000 + 0x6B00 + 16, some p)
  | .rx n i => (0xFFFF, 0x00040000 + 64 * n + 4 * i, none)
  | .holdNs n => (0xFFFF, 0x00040020 + 64 * n, none)
  | .creditNs n => (0xFFFF, 0x00040028 + 64 * n, none)
  | .guardNs o => (0xFFFF, 0x00041000 + 128 * o, none)
  | .shaperNs o c => (0xFFFF, 0x00041008 + 128 * o + 8 * c, none)
  | .bufQuarantined d k => (0xFFFF, 0x00044010 + 128 * d + 32 * k, none)
  | .adderCycles k => (0xFFFF, 0x00080008 + 32 * k, none)
  | .entRct => (0xFFFF, 0x000A0004, none)
  | .entApt => (0xFFFF, 0x000A0008, none)
  | .cipherIsoShort m => (0xFFFF, 0x000A0040 + 4 * m, none)
  | .bulkDiscard d => (0xFFFF, 0x000A0080 + 4 * d, none)
  | .page m i => (0xFFFF, 0x00020000 + 0x1000 * m + (if i ≤ 4 then 8 + 8 * i else if i ≤ 8 then 0x30 + 4 * (i - 5)
      else 0x44 + 4 * (i - 9)), none)
  | .ppsEdges => (0xFFFF, 0x00010030, none)
  | .ppsHoldover => (0xFFFF, 0x0001002C, none)
  | .snareDrop => (0xFFFF, 0x00001030, none)
  | .tocsinDrop n => (0xFFFF, 0x00001034 + 4 * n, none)
  | .eccCorr d => (0xFFFF, 0x00001040 + 8 * d, none)
  | .eccUncorr d => (0xFFFF, 0x000011C0 + 4 * d, none)

/-- The partition that a counter is kept for. -/
def ctrOwner : Ctr → Option Nat
  | .outCls p _ _ _ | .outPort p _ _ | .line p _ _ | .die p _ _ | .part p _ | .groupFlag p _ _ | .progFlag p _ _ | .trapCount p => some p
  | _ => none

/-- An increment that comes after the counters of a FREE partition were zeroed is discarded (R434). -/
def ctrGone (s : State) (c : Ctr) : Bool := ((ctrOwner c).map (fun p => (s.part p).state == .free)).getD false

/-- A counter increased by n: a wrapping counter modulo 2^64, a saturating one up to 2^32 − 1 with COUNTER_SAT at the
first increment that reaches it (R433, R436). -/
def bumpBy (s : State) (c : Ctr) (n : Nat) : State :=
  let v := s.ctr c
  if s.ctrGone c then s
  else if ctrWraps c then { s with ctrs := setSparse c ((v + n) % 2 ^ 64) 0 s.ctrs }
  else
    let w := min (v + n) 0xFFFFFFFF
    let s' := { s with ctrs := setSparse c w 0 s.ctrs }
    if w == 0xFFFFFFFF && v != 0xFFFFFFFF then
      let pl := s.ctrPlace c
      s'.raise 0x0001 pl.2.2 (oct 0 ++ leBytes 2 pl.1 ++ leBytes 4 pl.2.1)
    else s'

/-- A counter increased by one. -/
def bump (s : State) (c : Ctr) : State := s.bumpBy c 1

/-- Codes of partition states (R446). -/
def pstateCode : PState → Nat
  | .free => 0
  | .starting => 1
  | .active => 2
  | .reloading => 3
  | .halted => 4
  | .scrubbing => 5

/-- A partition changes state, and the PARTITION event tells it (R43, R440, R478). -/
def setPState (s : State) (p : Nat) (st : PState) (cause : Nat) : State :=
  (s.updPart p (fun q => { q with state := st })).raise 0x0401 (some p)
    (oct cause ++ oct (pstateCode (s.part p).state) ++ oct (pstateCode st))

/-- A partition's counter of set 0x05. -/
def bumpPart (s : State) (p i : Nat) : State := s.bump (.part p i)

end State

end Sys2Proof.Machine
end

