-- ==== Sys2Proof/Machine/Quartz.lean ====
section
/-! DEFINITION. Quartz: counting, the addend, the slew and the servo, and its comparators (R358 to R370, R375). -/

namespace Sys2Proof.Machine

/-- One second in ns. -/
def nsPerSec : Nat := 1000000000

/-- The slew term: sign(r) × 100,000 while r is not 0 (R365). -/
def slewTerm (r : Int) : Int := if r > 0 then 100000 else if r < 0 then -100000 else 0

/-- c: the sum of the terms, clamped to −200,000 to +200,000 (R359). -/
def corrOf (i p slew : Int) : Int := max (-200000) (min 200000 (i + p + slew))

/-- The correction in force (R359). -/
def Quartz.corr (q : Quartz) : Int := corrOf q.integral q.prop (slewTerm q.slew)

/-- The addend of a correction (R359). -/
def addendOf (c : Int) : Nat := (rneDiv (2684354560 * (1000000000 + c)) 1000000000).toNat

/-- The addend recomputed (R359). -/
def Quartz.retune (q : Quartz) : Quartz := { q with addend := addendOf q.corr }

/-- Count by one KCLK cycle (R358). -/
def Quartz.count (q : Quartz) : Quartz :=
  let n := q.ns * 2 ^ 28 + q.frac + q.addend
  let carry := decide (nsPerSec * 2 ^ 28 ≤ n)
  let m := if carry then n - nsPerSec * 2 ^ 28 else n
  { q with secs := if carry then (q.secs + 1) % 2 ^ 48 else q.secs, ns := m / 2 ^ 28, frac := m % 2 ^ 28 }

/-- What the slew term gains in one cycle, in 2^−28 ns: the addend with it less the addend without it; nothing while no term is
added (R365). -/
def Quartz.slewGain (q : Quartz) : Int :=
  if q.slew == 0 then 0 else (q.addend : Int) - (addendOf (corrOf q.integral q.prop 0) : Int)

/-- The remaining offset after one cycle; it reaches 0 or changes sign when the second component holds (R365). -/
def Quartz.slewStep (q : Quartz) : Int × Bool :=
  let r := q.slew - q.slewGain
  (r, q.slew != 0 && (r == 0 || (decide (r < 0) != decide (q.slew < 0))))

/-- The remaining offset as the Quartz block shows it, signed ns, fraction dropped (R449, log entry 7). -/
def Quartz.slewNs (q : Quartz) : Int := q.slew.tdiv (2 ^ 28)

/-- Quartz time in half ns, the fraction rounded by rne (R371). -/
def Quartz.half (q : Quartz) : Int := 2 * ((q.secs * nsPerSec + q.ns : Nat) : Int) + rneDiv q.frac (2 ^ 27)

/-- Quartz takes a time given in half ns (R364). The time between the last accepted edge of PPS_IN and now stays what it was (R368,
log entry 27). -/
def Quartz.take (q : Quartz) (t : Nat) : Quartz :=
  { q with secs := t / (2 * nsPerSec) % 2 ^ 48, ns := t % (2 * nsPerSec) / 2, frac := t % 2 * 2 ^ 27, set := true, pendingSet := none,
           lastEdge := q.lastEdge.map (fun l => l + ((t : Int) - q.half)) }

/-- A comparator armed with a target, or disarmed, from the next cycle on (R375, R376). -/
def Quartz.arm (q : Quartz) (k : Nat) (t : Option (Nat × Nat)) : Quartz := { q with arming := q.arming.set k (some t) }

/-- The target that a comparator holds or is about to hold. -/
def Quartz.target (q : Quartz) (k : Nat) : Option (Nat × Nat) := (q.arming.getD k none).getD (q.comparators.getD k none)

/-- A comparator's target has come (R375). -/
def Quartz.fires (q : Quartz) (k : Nat) : Bool :=
  match q.comparators.getD k none with
  | some t => decide (t.1 < q.secs) || (t.1 == q.secs && decide (t.2 ≤ q.ns))
  | none => false

/-- A comparator in one KCLK cycle: one whose old target has come serves it first, and is armed anew in the cycle after; any other takes
what it was armed with (R375, R376). -/
def Quartz.load (q : Quartz) (k : Nat) : Quartz :=
  if q.fires k then q
  else match q.arming.getD k none with
    | some t => { q with comparators := q.comparators.set k t, arming := q.arming.set k none }
    | none => q

/-- The old target of a comparator that has fired is done with. -/
def Quartz.served (q : Quartz) (k : Nat) : Quartz := { q with comparators := q.comparators.set k none }

/-- A challenge for TIME_SET whose 600 s are over is used up (R363, R375). -/
def Quartz.expire (q : Quartz) : Quartz :=
  { q with timeChallenge := q.timeChallenge.filter (fun c => decide (q.secs < c.2.1) || (q.secs == c.2.1 && decide (q.ns < c.2.2))) }

/-- Seconds and ns of a time in ns. -/
def secNs (t : Nat) : Nat × Nat := (t / nsPerSec, t % nsPerSec)

namespace State

/-- PPS_IN drives the servo: bit 1 of the TIME flags (R367, R368). -/
def ppsIn (s : State) : Bool := (s.conf.time.map (·.ppsIn)).getD false

/-- PPS_OUT is on: bit 0 of the TIME flags, and Quartz SET (R370). -/
def ppsOutOn (s : State) : Bool := (s.conf.time.map (·.ppsOut)).getD false && s.quartz.set

/-- The next whole second plus the PPS_OUT offset after the present (R370). -/
def nextPpsRise (s : State) : Nat × Nat :=
  let off := (s.conf.time.map (·.ppsOffset)).getD 0
  if s.quartz.ns < off then (s.quartz.secs, off) else (s.quartz.secs + 1, off)

/-- Comparator 0 armed for the next rise of PPS_OUT, or disarmed where PPS_OUT stays low (R370, R375). -/
def armPpsOut (s : State) : State :=
  { s with quartz := s.quartz.arm 0 (if s.ppsOutOn then some s.nextPpsRise else none) }

/-- Comparator 1 armed one second on (R353, R375). -/
def armReseed (s : State) : State := { s with quartz := s.quartz.arm 1 (some (secNs (s.now + nsPerSec))) }

/-- Starts and ends of maintenance windows, in seconds (R93). -/
def windowEdges (s : State) : List Nat := (((s.conf.power.map (·.windows)).getD []).flatMap (fun w => [w.1, w.1 + w.2]))

/-- Comparator 2 armed for the next start or end of a maintenance window (R375). -/
def armMaintenance (s : State) : State :=
  let later := s.windowEdges.filter (fun t => decide (s.quartz.secs < t))
  { s with quartz := s.quartz.arm 2 (later.min?.map (fun t => (t, 0))) }

/-- The Quartz side of every start: servo in HOLDOVER, i from the TIME record, p = 0, addend recomputed (R367, R368). -/
def startQuartz (s : State) : State :=
  let q := { s.quartz with integral := (s.conf.time.map TimeRec.trim).getD 0, prop := 0, tracking := false, lastEdge := none }
  { s with quartz := q.retune }

/-- A wake source of Watch fires: the device begins to wake, once it has entered (R428, R430). -/
def wakeDevice (s : State) : State :=
  let d := s.power.device
  if d.entering.isSome then { s with power := { s.power with device := { d with cause := true } } }
  else if d.state == 4 then { s with power := { s.power with device := { d with waking := true } } }
  else s

/-- One KCLK cycle of Quartz. A slew that ends, an edge of PPS_OUT and an end of a maintenance window are handed on, and an old
challenge ends; each comparator that fires wakes the device from Watch, and what 1 and 4 to 15 time comes as commands (R358, R365,
R375, R376, R430; log entry 5). -/
def tickQuartz (s : State) : State :=
  let q0 := s.quartz
  let st := q0.slewStep
  let q := (List.range 16).foldl Quartz.load { q0.count with slew := st.1 }
  let fired := (List.range 16).filter q.fires
  let r := fired.foldl Quartz.served q
  let s := { s with quartz := if fired.contains 3 then r.expire else r, cycle := s.cycle + 1 }
  let s := if fired.isEmpty then s else s.wakeDevice
  let s := if st.2 then s.hand .slewComplete else s
  let s := if fired.contains 0 then s.hand (.ppsOutEdge (!q.ppsOut)) else s
  if fired.contains 2 then s.hand .maintenanceWindow else s

end State

end Sys2Proof.Machine
end

