-- ==== Sys2Proof/Machine/Reply.lean ====
section
/-! DEFINITION. Replies of the command mailbox, Tocsin frames out, and rejected records (R416 to R421, R458 to R461). -/

namespace Sys2Proof.Machine

/-- A Tocsin frame's header and body (R417). -/
def tocsinBytes (kind session seq : Nat) (body : Octets) : Octets :=
  [0x01, BitVec.ofNat 8 kind] ++ beBytes 2 body.length ++ beBytes 4 session ++ beBytes 8 seq ++ body

/-- A record's carrier header and its one piece (R459). -/
def carrierBytes (x : Octets) : Octets := [0x03] ++ zeros 3 ++ beBytes 4 x.length ++ zeros 8 ++ x

/-- The reply layout of R460. -/
def replyBytes (type : Nat) (st : Status) (body : Octets) : Octets :=
  beBytes 2 0x0D0E ++ beBytes 2 (12 + body.length) ++ [BitVec.ofNat 8 (statusCode st)] ++ zeros 3 ++ beBytes 2 type ++
    zeros 2 ++ body

/-- The public points that a signature verifies under: for each point R whose x-coordinate is r modulo n, the point
r⁻¹(sR − zG) of FIPS 186-5. -/
def signers (digest sig : Octets) : List Octets :=
  let r := beNat (slice 0 48 sig)
  let t := beNat (slice 48 48 sig)
  let z := beNat digest % p384N
  [r, r + p384N].flatMap (fun x =>
    let y := powMod p384P 384 ((x * x * x + p384P * 3 - 3 * (x % p384P) + p384B) % p384P) ((p384P + 1) / 4)
    if decide (x < p384P) && p384OnCurve x y then
      [y, p384P - y].map (fun v =>
        let w := invMod p384N r
        p384Encode (p384Add (p384Mul (w * t % p384N) (some (x, v))) (p384Mul (w * (p384N - z) % p384N) p384G)))
    else [])

/-- A signature verifies under a key whose SHA-384 hash is given (R36). -/
def signedByHash (h : BitVec 384) (msg sig : Octets) : Bool :=
  (signers (sha384 msg) sig).any (fun k => BitVec.ofNat 384 (beNat (sha384 k)) == h && ecdsaVerify k msg sig)

namespace State

/-- Session by ID. -/
def session (s : State) (id : Nat) : Option Session := s.tocsin.sessions.find? (fun x => x.id == id)

/-- A session changed by `f`. -/
def updSession (s : State) (id : Nat) (f : Session → Session) : State :=
  { s with tocsin := { s.tocsin with sessions := mapWhen (fun x => x.id == id) f s.tocsin.sessions } }

/-- A frame leaves on a MGMT port whose link is up (R418, R421). -/
def sendTocsin (s : State) (port : Nat) (x : Octets) : State :=
  if s.tocsin.links.getD port false then s.emit (.tocsin port x) else s

/-- A REPLY on an open session: sealed under the Doldex's key (R421); session 0 answers in clear (R461). -/
def sendReply (s : State) (id port : Nat) (x : Octets) : State :=
  if id == 0 then s.sendTocsin port (tocsinBytes 0x21 0 0 (carrierBytes x))
  else match s.session id with
    | none => s
    | some ss =>
      let seq := ss.txSeq + 1
      let pt := carrierBytes x
      let hdr := [0x01, 0x21] ++ beBytes 2 (pt.length + 16) ++ beBytes 4 id ++ beBytes 8 seq
      let c := gcmSeal ss.devKey (ss.devSalt ++ beBytes 8 seq) hdr pt
      (s.updSession id (fun y => { y with txSeq := seq })).sendTocsin port (hdr ++ c.1 ++ c.2)

/-- The mailbox is free: firmware passes it the next record that has been received whole (R458). -/
def freeMail (s : State) : State :=
  let s : State := { s with mail := { s.mail with current := none } }
  if s.mail.queue.isEmpty then s else s.hand .go

/-- The record in the mailbox is answered with the octets given, and the mailbox is free for the next (R458, R460). -/
def answer (s : State) (st : Status) (x : Octets) : State :=
  let cur := s.mail.current
  let s : State := { s with mail := { s.mail with status := statusCode st, reply := x } }
  let s := if cur.isSome then s.freeMail else s
  match cur with
  | some ⟨some (id, port), _⟩ => s.sendReply id port x
  | _ => s

/-- The usual reply to a record (R460). -/
def reply (s : State) (type : Nat) (st : Status) (body : Octets) : State := s.answer st (replyBytes type st body)

/-- A record rejected with an event and a reply (R440 RECORD_REJECT, R460, R478). -/
def reject (s : State) (type : Nat) (st : Status) : State :=
  (s.raise 0x0302 none (oct (statusCode st) ++ leBytes 2 type)).reply type st []

/-- The active owner slot: the highest-numbered valid one (R36, R67). -/
def activeOwner (s : State) : Option (BitVec 384) :=
  match s.owner with
  | [_, .valid h] => some h
  | [.valid h, _] => some h
  | _ => none

/-- A signature of the owner: some point whose SHA-384 is in the active slot verifies it (R36). -/
def ownerSigned (s : State) (msg sig : Octets) : Bool :=
  match s.activeOwner with
  | some h => signedByHash h msg sig
  | none => false

end State

end Sys2Proof.Machine
end

