-- ==== Sys2Proof/Machine/KeyStore.lean ====
section
/-! DEFINITION. The key store controller: derived keys, activations, magazines, grants, the erase, Knell, the entropy
source and the DRBG (R328 to R357). -/

namespace Sys2Proof.Machine

/-- Octets of the device unique identifier (R444: records carry it in network byte order). -/
def uidOctets (x : Fixed) : Octets := beBytes 8 x.uid.toNat

/-- The key of a derived slot 0 to 6 from the device root key (R350). -/
def deriveSlot (x : Fixed) (starts : Nat) : Nat → Octets
  | 0 => kdf (beBytes 32 x.rootKey.toNat) "OMOTH KEYBLOB KEK" (uidOctets x) 256
  | 1 => kdf (beBytes 32 x.rootKey.toNat) "OMOTH KEY IMPORT" (uidOctets x) 512
  | 2 => kdf (beBytes 32 x.rootKey.toNat) "OMOTH STARTUP" (uidOctets x ++ beBytes 8 starts) 256
  | 3 => kdf (beBytes 32 x.rootKey.toNat) "OMOTH SELFTEST" (uidOctets x ++ beBytes 8 starts) 256
  | 4 => kdf (beBytes 32 x.rootKey.toNat) "OMOTH RECOVERY" (uidOctets x) 256
  | 5 => kdf (beBytes 32 x.rootKey.toNat) "OMOTH SLATE" (uidOctets x ++ beBytes 8 starts) 256
  | _ => kdf (beBytes 32 x.rootKey.toNat) "OMOTH TOCSIN" (uidOctets x) 512

/-- The pair key of a device whose identifier is given (R400). -/
def pairKey (master : Octets) (uid : Nat) : Octets := kdf master "OMOTH PAIR" (beBytes 8 uid) 256

/-- The slot 7 key and salt of a pair key: 256 bits and 32 bits (R350). -/
def partnerKey (pair : Octets) : Octets × Octets :=
  let k := kdf pair "OMOTH PARTNER" (zeros 8) 288
  (k.take 32, k.drop 32)

/-- The line key and salt of a master (R342). -/
def deriveLine (master : Octets) (a v : Nat) (trace : Octets) : Octets × Octets :=
  let k := kdf master "OMOTH LINE" (beBytes 8 a ++ beBytes 4 v ++ trace) 288
  (k.take 32, k.drop 32)

/-- The repetition count test: no run of 41 identical samples (R352). -/
def rctOk : Option (Bool × Nat) → List Bool → Bool
  | _, [] => true
  | none, b :: r => rctOk (some (b, 1)) r
  | some (p, n), b :: r =>
    if b == p then (if n + 1 ≥ 41 then false else rctOk (some (b, n + 1)) r) else rctOk (some (b, 1)) r

/-- The adaptive proportion test on windows of 1,024 samples: fewer than 796 equal the first (R352). -/
def aptOk : Nat → List Bool → Bool
  | 0, _ => true
  | _ + 1, [] => true
  | n + 1, b :: r =>
    let w := (b :: r).take 1024
    decide ((w.filter (· == b)).length < 796) && aptOk n ((b :: r).drop 1024)

/-- Both health tests over a run of samples (R352). -/
def healthOk (x : List Bool) : Bool := rctOk none x && aptOk x.length x

/-- Raw samples as octets of entropy input, first sample in bit 7 (R353, log entry 9). -/
def packSamples (x : List Bool) : Octets := octetsOfBits (ceilDiv x.length 8) (x ++ List.replicate (8 - x.length % 8) false)

namespace State

/-! ### Derived keys -/

/-- The key of a derived slot, which slots 0 and 7 get when first needed; none after Knell (R350, R351). -/
def derivedKey (s : State) (n : Nat) : Option Octets := s.keys.derived.lookup n

/-- Slots 1 to 4 and 6 derived (R350). -/
def deriveAtStart (s : State) : State :=
  let n := s.boot.retention.starts
  { s with keys := { s.keys with derived := [1, 2, 3, 4, 6].map (fun k => (k, deriveSlot s.fixed n k)) } }

/-- A derived slot held from now on (R350). -/
def hold (s : State) (n : Nat) (k : Octets) : State := { s with keys := { s.keys with derived := setEntry n k s.keys.derived } }

/-- The key-encryption key of slot 0, derived when first needed; none when Knell has run since the start (R350, R351). -/
def kek (s : State) : Option (Octets × State) :=
  match s.derivedKey 0 with
  | some k => some (k, s)
  | none => if s.keys.derived.isEmpty then none else some (deriveSlot s.fixed 0 0, s.hold 0 (deriveSlot s.fixed 0 0))

/-! ### Random numbers (R353, R355) -/

/-- `n` octets from the DRBG, at most 64; none while the source is not HEALTHY or no DRBG is held. A reseed comes first
after 65,536 requests, from free entropy (log entry 9). -/
def drbg (s : State) (n : Nat) : Option (Octets × State) :=
  match s.keys.ent, s.keys.drbg with
  | .healthy, some d =>
    let r : DrbgState × State :=
      if d.reseedCounter > 65536 then
        let f := s.freeOctets 96
        (drbgReseed f.1 d, f.2)
      else (d, s)
    let g := drbgGenerate n r.1
    some (g.1, { r.2 with keys := { r.2.keys with drbg := some g.2 } })
  | _, _ => none

/-- Salts for `n` positions (R340). -/
def drawSalts (s : State) : Nat → Option (List Octets × State)
  | 0 => some ([], s)
  | n + 1 => do
    let a ← s.drawSalts n
    let b ← a.2.drbg 4
    pure (a.1 ++ [b.1], b.2)

/-! ### Activation (R329) -/

/-- The octets of the retention record that its CMAC covers: a_last, start count, last root PLL; their order is the model's (R329, R395,
log entry 25). -/
def retentionOctets (r : Retention) : Octets :=
  beBytes 4 r.aLast ++ beBytes 8 r.starts ++ beBytes 1 ((r.pll.map (· + 1)).getD 0)

/-- The retention record changed, and sealed anew under slot 4 where its key is held (R329, R350). -/
def noteRetention (s : State) (f : Retention → Retention) : State :=
  let r := f s.boot.retention
  let x := ((s.derivedKey 4).map (fun k => cmac k (retentionOctets r))).getD r.mac
  { s with boot := { s.boot with retention := { r with mac := x } } }

/-- Stage 4's check of the retention record under slot 4: one that fails it is ignored (R329, R379). -/
def checkRetention (s : State) : State :=
  let r := s.boot.retention
  if (s.derivedKey 4).any (fun k => cmac k (retentionOctets r) == r.mac) then s
  else { s with boot := { s.boot with retention := ⟨0, 0, none, []⟩ } }

/-- The next activation index: the register of 32 bits takes it (R329). -/
def activate (s : State) : Nat × State :=
  let a := max (s.boot.retention.aLast + 1) (s.quartz.secs % 2 ^ 32) % 2 ^ 32
  (a, s.noteRetention (fun r => { r with aLast := a }))

/-! ### Slots 64 and above (R337 to R348) -/

/-- A slot that holds or has held a magazine. -/
def keySlot (s : State) (n : Nat) : Option KeySlot := s.keys.slots.find? (fun k => k.slot == n)

/-- A slot changed by `f`. -/
def updSlot (s : State) (n : Nat) (f : KeySlot → KeySlot) : State :=
  { s with keys := { s.keys with slots := mapWhen (fun k => k.slot == n) f s.keys.slots } }

/-- A slot's entry set. -/
def putSlot (s : State) (k : KeySlot) : State :=
  if (s.keySlot k.slot).isSome then s.updSlot k.slot (fun _ => k)
  else { s with keys := { s.keys with slots := s.keys.slots ++ [k] } }

/-- The current key of a slot that is not EMPTY: key, salt, usage limit. -/
def currentKey (k : KeySlot) : Option (Octets × Octets × Nat) :=
  if k.state == .empty then none else k.mag.keys[k.pos]?

/-- The next key of a slot: the following position, or position 0 of the staged magazine (R338). -/
def nextKey (k : KeySlot) : Option (Octets × Octets × Nat) :=
  if k.state == .empty then none
  else match k.staged with
    | some m => m.keys.head?
    | none => k.mag.keys[k.pos + 1]?

/-- Epoch of the current key (R338). -/
def epochOf (k : KeySlot) : Nat := (k.magNum % 16) * 16 + k.pos

/-- Epoch of the next key (R338). -/
def nextEpoch (k : KeySlot) : Nat :=
  if k.staged.isSome then ((k.magNum + 1) % 16) * 16 else epochOf k + 1

/-- Grants of a slot's key to line dies end: blocks are abandoned (R339). -/
def dropBlocks (s : State) (n : Nat) : State :=
  { s with keys := { s.keys with blocks := s.keys.blocks.filter (fun b => b.slot != n) } }

/-- A new sealing key takes its activation index when Quartz is SET, and no invocation of it is granted yet (R329, R340). -/
def freshKey (s : State) (n : Nat) : State :=
  let s := s.dropBlocks n
  if s.quartz.set then
    let a := s.activate
    a.2.updSlot n (fun k => { k with activation := some a.1, granted := 0 })
  else s.updSlot n (fun k => { k with activation := none, granted := 0 })

/-! ### Line keys (R342, R343) -/

/-- The line key of a port stops: OTAG octets as 0 from the next one on, and no acknowledgement block, not even one that is built
(R342, R343, R348, R355). -/
def dropLineKey (s : State) (m : Nat) : State :=
  s.updLine m (fun l => { l with tx := { l.tx with key := none, used := 0, limit := 0, otag := [], kep := 0 } })

/-- A new activation of a port's line key (R342): none of it without a SET Quartz, a HEALTHY source, an ACTIVE line-key
slot, or with equal traces (R343, R355, R366). -/
def lineActivate (s : State) (m : Nat) : State :=
  match s.conf.lineOf m with
  | none => s.dropLineKey m
  | some r =>
    match (s.keySlot r.keySlot).bind currentKey with
    | none => s.dropLineKey m
    | some master =>
      if !s.quartz.set || r.transmitted == r.expected then s.dropLineKey m
      else match s.drbg 4 with
        | none => s.dropLineKey m
        | some (v, s) =>
          let a := s.activate
          let d := deriveLine master.1 a.1 (beNat v) r.transmitted
          let s := a.2.updLine m (fun l =>
            { l with tx := { l.tx with key := some ⟨a.1, beNat v, d.1, d.2⟩, used := 0, limit := master.2.2 } })
          s.updSlot r.keySlot (fun k => { k with lineEpoch := a.1 % 256, linePort := some m })

/-- Every enabled line port whose LINE record names a slot takes a line key (R342). -/
def lineActivateAll (s : State) (slot : Nat) : State :=
  (s.conf.lines.filter (fun r => r.enabled && r.keySlot == slot && (s.line r.port).inService)).foldl
    (fun s r => s.lineActivate r.port) s

/-- A change of sealing key, counted (R357): every line port of a line-key slot takes a new activation (R342, R347). -/
def advanced (s : State) (n : Nat) : State :=
  match s.keySlot n with
  | some k => (if k.usage == 2 then s.lineActivateAll n else s.freshKey n).bumpPart k.part 9
  | none => s

/-- Sealing switches to the staged magazine (R340, R347). -/
def switchStaged (s : State) (n : Nat) : State :=
  match s.keySlot n with
  | some k =>
    match k.staged with
    | some m => (s.updSlot n (fun y =>
        { y with state := .active, mag := m, staged := none, magNum := y.magNum + 1, pos := 0,
                 generation := (y.generation + 1) % 65536 })).advanced n
    | none => s
  | none => s

/-- The limit of the current key of a usage 0x01 slot is reached: the next position, the staged magazine, or EXHAUSTED
(R339, R340, R347). -/
def limitReached (s : State) (n : Nat) : State :=
  match s.keySlot n with
  | none => s
  | some k =>
    if k.state != .active then s
    else if k.staged.isSome then s.switchStaged n
    else if (k.mag.keys[k.pos + 1]?).isSome then (s.updSlot n (fun y => { y with pos := y.pos + 1 })).advanced n
    else ((s.dropBlocks n).updSlot n (fun y => { y with state := .exhausted })).raise 0x0801 (some k.part) (oct 2 ++ leBytes 2 n)

/-- A body has opened under the next key: sealing moves to it (R341). -/
def openedUnderNext (s : State) (n : Nat) : State :=
  match s.keySlot n with
  | none => s
  | some k =>
    if k.staged.isSome then s.switchStaged n
    else (s.updSlot n (fun y => { y with pos := y.pos + 1, state := .active })).advanced n

/-- Unwraps a magazine's blobs in order: keys up to the first failure, and whether one failed (R89, R344). -/
def unwrapAll (kek : Octets) : List KeyBlobRec → List (Octets × Nat) × Bool
  | [] => ([], false)
  | b :: r =>
    match kwUnwrap kek b.wrapped with
    | some k =>
      let t := unwrapAll kek r
      ((k, b.limit) :: t.1, t.2)
    | none => ([], true)

/-- The magazine that a slot's blobs give: none when the DRBG gives no salts or no key-encryption key is held; with the
failure of a blob counted and logged (R89, R340, R344, R357). -/
def buildMagazine (s : State) (slot part usage : Nat) (blobs : List KeyBlobRec) : Option (Magazine × State) := do
  let (kk, s) ← s.kek
  let u := unwrapAll kk blobs
  let (salts, s) ← if usage == 1 then s.drawSalts u.1.length else some (u.1.map (fun _ => []), s)
  let s := if u.2 then (s.bumpPart part 11).raise 0x0801 (some part) (oct 1 ++ leBytes 2 slot) else s
  pure (⟨blobs, (u.1.zip salts).map (fun x => (x.1.1, x.2, x.1.2))⟩, s)

/-- A magazine installed in a slot that is EMPTY; the answer is none when entropy is wanting (R340, R355). A magazine whose
position 0 fails its unwrap leaves the slot EMPTY (R89). -/
def install (s : State) (slot : Nat) (blobs : List KeyBlobRec) : Option State := do
  let b ← blobs.head?
  let (m, s) ← s.buildMagazine slot b.part b.usage blobs
  let old := s.keySlot slot
  if m.keys.isEmpty then pure s
  else
    let k : KeySlot := {
      slot := slot, part := b.part, usage := b.usage, state := .active, mag := m, staged := none,
      magNum := (old.map (fun o => if o.held then o.magNum + 1 else 0)).getD 0, pos := 0,
      generation := ((old.map KeySlot.generation).getD s.keys.knells + 1) % 65536,
      activation := none, granted := 0, lineEpoch := 0, linePort := none, held := true }
    let s := s.putSlot k
    pure (if b.usage == 1 then s.freshKey slot else s)

/-- A rewrite applied at a step boundary: staged, or current at once on an EXHAUSTED slot (R340, R347). -/
def rewrite (s : State) (slot : Nat) (blobs : List KeyBlobRec) : Option State := do
  let b ← blobs.head?
  let (m, s) ← s.buildMagazine slot b.part b.usage blobs
  let k ← s.keySlot slot
  if m.keys.isEmpty then pure s
  else
    let s := s.updSlot slot (fun y => { y with staged := some m })
    pure (if k.state == .exhausted then s.switchStaged slot else s)

/-- A slot that has held no magazine yet, EMPTY (R340). -/
def emptySlot (slot part : Nat) : KeySlot :=
  { slot := slot, part := part, usage := 1, state := .empty, mag := ⟨[], []⟩, staged := none, magNum := 0, pos := 0, generation := 0,
    activation := none, granted := 0, lineEpoch := 0, linePort := none, held := false }

/-- The key-store part of an erase: EMPTY, generation + 1, keys destroyed, grants gone, in any state (R340, R348). -/
def eraseKeys (s : State) (slot : Nat) : State :=
  (s.dropBlocks slot).updSlot slot (fun y =>
    { y with state := .empty, mag := ⟨[], []⟩, staged := none, pos := 0, generation := (y.generation + 1) % 65536, activation := none,
             granted := 0, lineEpoch := 0, linePort := none })

/-- Every key installed while Quartz was UNSET takes its activation index at the setting (R329, R366). -/
def activateWaiting (s : State) : State :=
  (s.keys.slots.filter (fun k => k.state == .active && k.usage == 1 && k.activation.isNone)).foldl
    (fun s k => s.freshKey k.slot) s

/-! ### Grants to line dies (R339) -/

/-- The block that a line die holds of a slot. -/
def block (s : State) (die slot : Nat) : Option KeyBlock := s.keys.blocks.find? (fun b => b.die == die && b.slot == slot)

/-- A block joins a line die's blocks. -/
def addBlock (s : State) (b : KeyBlock) : State := { s with keys := { s.keys with blocks := s.keys.blocks ++ [b] } }

/-- The block in use after one invocation of it; a used-up block leaves (R339). -/
def useBlock (s : State) (b : KeyBlock) : State :=
  let l := s.keys.blocks
  let i := l.findIdx (fun x => x == b)
  { s with keys := { s.keys with blocks := if b.stop ≤ b.next + 1 then l.eraseIdx i else l.set i { b with next := b.next + 1 } } }

/-- Invocations of the current key not yet granted: LEFT (R337, R356). -/
def leftOf (k : KeySlot) : Nat := ((currentKey k).map (fun c => c.2.2)).getD 0 - k.granted

/-- A block granted to a line die, when an invocation is left and the key has its activation index (R329, R339). -/
def grantBlock (s : State) (die slot : Nat) : State :=
  match s.keySlot slot with
  | none => s
  | some k =>
    match k.activation with
    | none => s
    | some a =>
      let n := min (leftOf k) (2 ^ 20)
      if n == 0 || k.state != .active then s
      else (s.addBlock ⟨die, slot, k.generation, k.pos, k.granted, k.granted + n, a⟩).updSlot slot
        (fun y => { y with granted := y.granted + n })

/-- A line die asks for its next block: granted, or the limit is reached and the next key's block is granted (R339). -/
def askBlock (s : State) (die slot : Nat) : State :=
  match s.keySlot slot with
  | none => s
  | some k =>
    if k.usage != 1 || k.state != .active || k.activation.isNone then s
    else if leftOf k == 0 then (s.limitReached slot).grantBlock die slot
    else s.grantBlock die slot

/-- The next invocation of a line die's block, with the key it goes with: none when no invocation can be had. A die with no
block asks first; one with 2^18 invocations left of a longer block, or with its last block used up, asks for its next (R329,
R338, R339). -/
def takeInvocation (s : State) (die slot : Nat) : State × Option SealKey :=
  let s := if (s.block die slot).isSome then s else s.askBlock die slot
  match s.block die slot, (s.keySlot slot).bind (fun k => (currentKey k).map (fun c => (k, c))) with
  | some b, some (k, c) =>
    let t := s.useBlock b
    let t := if b.stop - (b.next + 1) == 2 ^ 18 || (t.block die slot).isNone then t.hand (.keyGrantRequest (Fin.ofNat 2 die) slot) else t
    (t, some ⟨c.1, c.2.1, b.activation * 2 ^ 32 + b.next, epochOf k, slot⟩)
  | _, _ =>
    -- a slot that has become EXHAUSTED has its streams fail (R322)
    (if ((s.keySlot slot).map KeySlot.state) == some .exhausted then s.hand (.keyGrantRequest (Fin.ofNat 2 die) slot) else s, none)

/-! ### Line keys in use (R339, R342, R347) -/

/-- A line key has reached its limit: a staged master is switched to, which gives every port of the slot a new activation; otherwise
the port takes a new activation of its own (R342, R347). -/
def lineLimitReached (s : State) (m : Nat) : State :=
  match (s.conf.lineOf m).bind (fun r => (s.keySlot r.keySlot).bind (fun k => k.staged.map (fun _ => k.slot))) with
  | some n => s.switchStaged n
  | none => s.lineActivate m

/-- One invocation of a port's line key is used; at the limit the port takes a new activation at once, so no index reaches the limit
(R329, R339, R342). -/
def useLineKey (s : State) (m : Nat) : State :=
  let s := s.updLine m (fun l => { l with tx := { l.tx with used := l.tx.used + 1 } })
  if (s.line m).tx.limit ≤ (s.line m).tx.used then s.lineLimitReached m else s

/-! ### Status word (R337) -/

/-- The status word of a slot (R337). -/
def slotWord (s : State) (n : Nat) : Nat :=
  match s.keySlot n with
  | none =>
    -- slots 0 to 63: a derived key that is held shows as ACTIVE with nothing else (log entry 10)
    if n < 64 then (if (s.derivedKey n).isSome then 2 ^ 62 else 0) else s.keys.knells % 65536 * 2 ^ 33
  | some k =>
    let st := match k.state with
      | .empty => 0
      | .active => 1
      | .exhausted => 2
    let line := k.usage == 2
    let left := if k.state == .empty then 0
      else if line then (k.linePort.map (fun m => (s.line m).tx.limit - (s.line m).tx.used)).getD 0
      else leftOf k
    let depth := if line || k.state == .empty then 0 else k.mag.keys.length - (k.pos + 1)
    let epoch := if line then k.lineEpoch else if k.state == .empty then 0 else epochOf k
    st * 2 ^ 62 + (if k.staged.isSome then 2 ^ 61 else 0) + depth * 2 ^ 57 + epoch * 2 ^ 49 + k.generation * 2 ^ 33 + left

/-! ### Entropy (R352 to R355) -/

/-- The source enters FAILED: output stops at once (R354). -/
def entropyFail (s : State) (apt : Bool) : State :=
  let s := s.bump (if apt then .entApt else .entRct)
  if s.keys.ent == .healthy then
    ({ s with keys := { s.keys with ent := .failed, retestFails := 0 } }).raise 0x0802 none (oct 1 ++ oct 1)
  else s

/-- The DRBG instantiated, or reseeded where it is held, from 768 samples (R353). -/
def seed (s : State) (entropy : Octets) : State :=
  let d := match s.keys.drbg with
    | some d => drbgReseed entropy d
    | none => drbgInstantiate entropy (uidOctets s.fixed)
  { s with keys := { s.keys with drbg := some d } }

/-! ### Knell (R351) -/

/-- Knell's part in the key store: every slot EMPTY, derived keys, DRBG and line keys gone; bulk work aborted. The streams
and bulk messages it ends are dealt with by the erase of each slot (R348, R351). -/
def knellKeys (s : State) (trigger : Nat) : State :=
  let s := ((s.keys.slots.filter (fun k => k.state != .empty)).map KeySlot.slot).foldl (fun s n => s.eraseKeys n) s
  let s := (List.range 16).foldl (fun s m => (s.dropLineKey m).updLine m (fun l => { l with rx := { l.rx with keys := [] } })) s
  let bulk := s.keys.bulk.map (fun b => { b with aborted := true, key := [] })
  let k := { s.keys with derived := [], knells := s.keys.knells + 1, drbg := none, blocks := [], bulk := bulk }
  let s := { s with keys := k }
  s.raise 0x0203 none (oct 0 ++ oct trigger)

end State

end Sys2Proof.Machine
end

