-- ==== Sys2Proof/Machine/Reduce.lean ====
section
/-! DEFINITION. Ranks and trees (R141, R142, R147 to R149) and the arithmetic of a peal's elements: ordered mode (R178,
R179), exact mode (R180 to R187), copying (R190). -/

namespace Sys2Proof.Machine

/-! ### Ranks (R142) -/

/-- The masked axes of a group in axis order. -/
def orderedAxes (g : GroupDef) : List Nat := g.axisOrder.take g.axisCount

/-- A coordinate is a member of the group (R141). -/
def isMember (g : GroupDef) (c : List Nat) : Bool :=
  c.length == 6 && (List.range 6).all (fun a =>
    let v := c.getD a 0
    if g.axisMask.testBit a then
      g.low.getD a 0 ≤ v && v ≤ g.high.getD a 0 && (v - g.low.getD a 0) % g.stride.getD a 1 == 0
    else v == 0)

/-- Rank of a coordinate over a list of axes (R142). -/
def rankOver (g : GroupDef) (axes c : List Nat) : Nat :=
  axes.foldl (fun r a => r * axisExtent g a + (c.getD a 0 - g.low.getD a 0) / g.stride.getD a 1) 0

/-- Rank of a member. -/
def rankOf (g : GroupDef) (c : List Nat) : Nat := rankOver g (orderedAxes g) c

/-- The masked axes but the site axis. -/
def localAxes (g : GroupDef) : List Nat := (orderedAxes g).filter (· != 0)

/-- Local rank: the rank over the masked axes but the site axis. -/
def localRank (g : GroupDef) (c : List Nat) : Nat := rankOver g (localAxes g) c

/-- Members of one site. -/
def localCount (g : GroupDef) : Nat := (localAxes g).foldl (fun n a => n * axisExtent g a) 1

/-- Number of sites of a group: 1 when the mask lacks axis 0. -/
def siteCount (g : GroupDef) : Nat := if g.axisMask.testBit 0 then axisExtent g 0 else 1

/-- The site value of a site rank; 0 when the mask lacks axis 0 (R143). -/
def siteOfRank (g : GroupDef) (k : Nat) : Nat :=
  if g.axisMask.testBit 0 then g.low.getD 0 0 + k * g.stride.getD 0 1 else 0

/-- Site rank of a coordinate. -/
def siteRank (g : GroupDef) (c : List Nat) : Nat :=
  if g.axisMask.testBit 0 then (c.getD 0 0 - g.low.getD 0 0) / g.stride.getD 0 1 else 0

/-! ### Trees A and B (R147) -/

/-- The largest power of two not above n. -/
def rootPosition (n : Nat) : Nat := 2 ^ Nat.log2 n

/-- The lowest set bit of p; `fuel` bits at most. -/
def lowBit : Nat → Nat → Nat
  | 0, _ => 1
  | f + 1, p => if p % 2 == 1 then 1 else 2 * lowBit f (p / 2)

/-- The right child's step: h halved until p + h is at most n. -/
def rightStep : Nat → Nat → Nat → Nat → Nat
  | 0, _, _, _ => 0
  | f + 1, p, n, h => if h ≥ 1 && p + h > n then rightStep f p n (h / 2) else h

/-- Children of position p among n positions. -/
def childPositions (p n : Nat) : List Nat :=
  let b := lowBit 32 p
  if b == 1 then []
  else
    let h := rightStep 33 p n (b / 2)
    [p - b / 2] ++ (if h ≥ 1 then [p + h] else [])

/-- Left and right child of position p. -/
def leftRight (p n : Nat) : Option Nat × Option Nat :=
  let b := lowBit 32 p
  if b == 1 then (none, none)
  else
    let h := rightStep 33 p n (b / 2)
    (some (p - b / 2), if h ≥ 1 then some (p + h) else none)

/-- Rank at a position of tree A (false) or B (true). -/
def rankAt (n : Nat) (treeB : Bool) (p : Nat) : Nat := if treeB then p % n else p - 1

/-- Position of a rank. -/
def positionOf (n : Nat) (treeB : Bool) (r : Nat) : Nat := if treeB then (if r == 0 then n else r) else r + 1

/-- Children of a rank in a tree, left first. -/
def childRanks (n : Nat) (treeB : Bool) (r : Nat) : List Nat :=
  (childPositions (positionOf n treeB r) n).map (rankAt n treeB)

/-- Parent of a rank; none at the root. -/
def parentRank (n : Nat) (treeB : Bool) (r : Nat) : Option Nat :=
  (List.range n).find? (fun q => (childRanks n treeB q).contains r)

/-- The tree of a chunk: A for even, B for odd (R149). -/
def chunkTree (chunk : Nat) : Bool := chunk % 2 == 1

/-- Ranks of the subtree below a position, in rank order; `fuel` levels. -/
def subtreePositions : Nat → Nat → Nat → List Nat
  | 0, _, _ => []
  | f + 1, n, p => p :: (childPositions p n).flatMap (subtreePositions f n)

/-- The ranks of the subtree of a rank, ascending. -/
def subtreeRanks (n : Nat) (treeB : Bool) (r : Nat) : List Nat :=
  let ps := (subtreePositions 33 n (positionOf n treeB r)).map (rankAt n treeB)
  (List.range n).filter (fun q => ps.contains q)

/-- Tree neighbours of a rank: parent and children. -/
def treeNeighbours (n : Nat) (treeB : Bool) (r : Nat) : List Nat :=
  (parentRank n treeB r).toList ++ childRanks n treeB r

/-- Neighbours in either tree (R161). -/
def allNeighbours (n r : Nat) : List Nat := (treeNeighbours n false r ++ treeNeighbours n true r).eraseDups

/-- The value of the subtree at position p: (left + own) + right (R178). -/
def treeValue {α : Type} (f : α → α → α) (own : Nat → α) (n : Nat) (treeB : Bool) : Nat → Nat → α
  | 0, p => own (rankAt n treeB p)
  | d + 1, p =>
    let v := own (rankAt n treeB p)
    let lr := leftRight p n
    let v1 := match lr.1 with
      | some l => f (treeValue f own n treeB d l) v
      | none => v
    match lr.2 with
    | some r => f v1 (treeValue f own n treeB d r)
    | none => v1

/-! ### Element values -/

/-- An integer element. -/
def Elem.ofInt (i : Int) : Elem := ⟨.zero, i, .none, none⟩

/-- An FP32 element without trap. -/
def Elem.ofNum (x : Num) : Elem := ⟨x, 0, .none, none⟩

/-- A contribution in ordered mode, converted exactly to FP32 or to an integer (R174, R178, R179, R190). -/
def orderedInput (strict : Bool) (f : Fmt) (bits : Nat) : Elem :=
  if f.isInt then .ofInt (fmtToInt f bits)
  else
    let x := operandNum strict f bits
    if x.isNan then ⟨.nan, 0, .none, some 1⟩ else .ofNum x

/-- Ordered addition of two elements: one rounding for FP32, exact for integers (R178, R179). -/
def orderedAdd (strict isInt : Bool) (a b : Elem) : Elem :=
  if isInt then .ofInt (signedOf 48 (unsignedOf 48 (a.int + b.int)))
  else
    let r := fp32Add strict a.num b.num
    ⟨r.val, 0, (a.flags.or b.flags).or r.flags, (a.trap.orElse (fun _ => b.trap)).orElse (fun _ => r.trap)⟩

/-- E_x of a contribution; none when it takes no part (R180). -/
def exponentOf (strict : Bool) (f : Fmt) (p : Nat) (bits : Nat) : Option Int :=
  if f.isInt then none
  else match operandNum strict f bits with
    | .fin _ m e =>
      if m == 0 then none
      else
        let q := log2Of m e + 1 - (p : Int)
        some (max (log2Of (rneAt m e q) q) (-126))
    | _ => none

/-- The exponent octet (R181). -/
def exponentOctet (e : Option Int) : Nat :=
  match e with
  | none => 0
  | some x => (x + 127).toNat

/-- The exponent octet of one block of contributions: the maximum over its elements. -/
def blockOctet (strict : Bool) (f : Fmt) (p : Nat) (vs : List Nat) : Nat :=
  (vs.map (fun v => exponentOctet (exponentOf strict f p v))).foldl max 0

/-- The blocks of 64 elements of a chunk. -/
def blocksOf {α : Type} : Nat → List α → List (List α)
  | 0, _ => []
  | n + 1, l => l.take 64 :: blocksOf n (l.drop 64)

/-- The exponent octets of one member's chunk. -/
def chunkOctets (strict : Bool) (f : Fmt) (p : Nat) (vs : List Nat) : List Nat :=
  (blocksOf (ceilDiv vs.length 64) vs).map (blockOctet strict f p)

/-- The poison marker of R185. -/
def marker (w : Nat) : Int := -(2 ^ (w - 1) : Nat)

/-- A contribution in exact mode: its integer n with the agreed exponent octet, clamped (R155, R182, R185, R186). -/
def exactInput (strict : Bool) (f : Fmt) (w p octet : Nat) (bits : Nat) : Elem :=
  if f.isInt then .ofInt (fmtToInt f bits)
  else match operandNum strict f bits with
    | .nan => ⟨.zero, marker w, .none, some 1⟩
    | .inf _ => ⟨.zero, marker w, .none, some 2⟩
    | .fin neg m e =>
      if octet == 0 || m == 0 then .ofInt 0
      else
        let q := (octet : Int) - 127 + 1 - (p : Int)
        let n := (rneAt m e q : Int)
        let c := min n ((2 ^ p - 1 : Nat) : Int)
        ⟨.zero, if neg then -c else c, FpFlags.inMode strict ⟨false, false, false, !exactAt m e q⟩, none⟩

/-- The W-bit sum, with the marker absorbing for floating-point peals (R182, R185, R186). -/
def exactAdd (isInt : Bool) (w : Nat) (a b : Elem) : Elem :=
  let s := if !isInt && (a.int == marker w || b.int == marker w) then marker w
    else signedOf w (unsignedOf w (a.int + b.int))
  ⟨.zero, s, a.flags.or b.flags, a.trap.orElse (fun _ => b.trap)⟩

/-- The sum of nothing. -/
def Elem.zero : Elem := .ofInt 0

/-- A result element: its bit pattern, the flags and the trap of its whole history here, and whether an integer result
saturated (R187). -/
structure Result where
  bits : Nat
  flags : FpFlags
  trap : Option Nat
  sat : Bool
  deriving DecidableEq, Repr, Inhabited

/-- An integer result in an integer format (R187). -/
def intResult (out : Fmt) (e : Elem) : Result := ⟨fmtOfIntSat out e.int, e.flags, e.trap, fmtOutOfRange out e.int⟩

/-- The result of ordered mode: round_to(output format, value) (R178). -/
def orderedResult (strict : Bool) (inp out : Fmt) (e : Elem) : Result :=
  if inp.isInt then intResult out e
  else
    let r := roundNum out strict e.num
    ⟨r.bits, e.flags.or r.flags, e.trap, false⟩

/-- The result of exact mode: round_to(output format, S × q), with cause 0x04 above the largest finite value (R182, R184,
R185). -/
def exactResult (strict : Bool) (inp out : Fmt) (w p octet : Nat) (e : Elem) : Result :=
  if inp.isInt then intResult out e
  else if e.int == marker w then ⟨out.canonicalNan, e.flags, e.trap, false⟩
  else
    let q := (octet : Int) - 127 + 1 - (p : Int)
    let r := roundFin out strict (decide (e.int < 0)) e.int.natAbs q
    if r.above then ⟨out.canonicalNan, e.flags.or r.flags, e.trap.orElse (fun _ => some 4), false⟩
    else ⟨if e.int == 0 then 0 else r.bits, e.flags.or r.flags, e.trap, false⟩

/-- Copying of ALL_GATHER and BROADCAST (R190). -/
def copyElem (strict : Bool) (inp out : Fmt) (bits : Nat) : Result :=
  if inp == out then ⟨bits, .none, none, false⟩
  else if inp.isInt then ⟨fmtOfIntSat out (fmtToInt inp bits), .none, none, false⟩
  else
    let x := operandNum strict inp bits
    if x.isNan then ⟨out.canonicalNan, .none, some 1, false⟩
    else ⟨(roundNum out strict x).bits, .none, none, false⟩

/-! ### Payloads on the line (R3, R157) -/

/-- Octets of one partial element: W / 8 in exact mode, 4 in ordered mode of a floating-point input, 6 of an integer one. -/
def partialSize (exact : Bool) (inp : Fmt) (w : Nat) : Nat := if exact then w / 8 else if inp.isInt then 6 else 4

/-- One partial element in network byte order. -/
def partialBytes (exact : Bool) (inp : Fmt) (w : Nat) (e : Elem) : Octets :=
  if exact then beBytes (w / 8) (unsignedOf w e.int)
  else if inp.isInt then beBytes 6 (unsignedOf 48 e.int)
  else beBytes 4 (roundNum .fp32 true e.num).bits

/-- One partial element read back; a NaN that arrives poisons without a new trap (R190). -/
def partialOf (exact : Bool) (inp : Fmt) (w : Nat) (x : Octets) : Elem :=
  if exact then .ofInt (signedOf w (beNat x))
  else if inp.isInt then .ofInt (signedOf 48 (beNat x))
  else .ofNum (decodeNum .fp32 (beNat x))

/-- `n` partial elements of a payload. -/
def partialsOf (exact : Bool) (inp : Fmt) (w n : Nat) (x : Octets) : List Elem :=
  let z := partialSize exact inp w
  (List.range n).map (fun i => partialOf exact inp w (slice (z * i) z x))

/-- Element patterns in network byte order. -/
def netBytes (f : Fmt) (vs : List Nat) : Octets := vs.flatMap (beBytes f.size)

/-- Element patterns read from network byte order. -/
def netElems (f : Fmt) (n : Nat) (x : Octets) : List Nat := (List.range n).map (fun i => beAt (f.size * i) f.size x)

/-- The group's fingerprint (R146). -/
def groupBody (g : GroupDef) : Octets :=
  zeros 2 ++ beBytes 2 g.group ++ beBytes 1 g.axisCount ++ beBytes 1 g.axisMask ++ beBytes 1 g.mode ++ beBytes 1 g.policy ++
  g.axisOrder.flatMap (beBytes 1) ++ beBytes 1 g.w ++ beBytes 1 g.p ++ g.low.flatMap (beBytes 1) ++ g.high.flatMap (beBytes 1) ++
  g.stride.flatMap (beBytes 1) ++ beBytes 1 g.slice ++ zeros 1 ++ beBytes 4 g.deadline ++ beBytes 2 g.quorumMin ++
  beBytes 2 g.proj ++ zeros 4

/-- CRC-32C of body octets 2 to 33, 40 and 41, and the projection octet (R146). -/
def fingerprint (g : GroupDef) : Nat :=
  let b := groupBody g
  crcOf crc32c (slice 2 32 b ++ slice 40 2 b ++ [if g.proj == 0xFFFF then 0 else 1])

end Sys2Proof.Machine
end

