-- ==== Sys2Proof/Machine/Operands.lean ====
section
/-! DEFINITION. Operand forms of the Yuviette interface: frames (R115), the header (R123), and the body of every
descriptor, read into a command (R124, R131, R135, R138 to R140, R144, R150, R167, R218, R220, R242). A fault of form in
a descriptor's own fields answers `none`, which the caller turns into BAD_DESCRIPTOR. -/

namespace Sys2Proof.Machine

/-- The octet that a Space code of R131, R215 and R242 names. -/
def spaceOfCode : Nat → Option Space
  | 0 => some .global
  | 1 => some .scratch
  | 2 => some .basalt
  | _ => none

/-- The code of a space. -/
def spaceCode : Space → Nat
  | .global => 0
  | .scratch => 1
  | .basalt => 2
  | .coreData => 3

/-- Atomic operations by code (R134). -/
def atomicOfCode : Nat → Option AtomicOp
  | 1 => some .fetchAdd
  | 2 => some .swap
  | 3 => some .compareSwap
  | 4 => some .fetchAnd
  | 5 => some .fetchOr
  | 6 => some .fetchXor
  | _ => none

/-- The code of an atomic operation. -/
def atomicCode : AtomicOp → Nat
  | .fetchAdd => 1
  | .swap => 2
  | .compareSwap => 3
  | .fetchAnd => 4
  | .fetchOr => 5
  | .fetchXor => 6

/-- The new value of an atomic of `n` octets (R134). -/
def atomicNew (op : AtomicOp) (n old a b : Nat) : Nat :=
  let m := 2 ^ (8 * n)
  let x := a % m
  match op with
  | .fetchAdd => (old + x) % m
  | .swap => x
  | .compareSwap => if old == x then b % m else old
  | .fetchAnd => old &&& x
  | .fetchOr => old ||| x
  | .fetchXor => old ^^^ x

/-- Peal kinds by code (R150). -/
def pealKindOfCode : Nat → Option PealKind
  | 1 => some .reduce
  | 2 => some .allReduce
  | 3 => some .reduceScatter
  | 4 => some .allGather
  | 5 => some .broadcast
  | _ => none

/-- Formats of a peal: codes 0x01 to 0x07 (R150). -/
def pealFmt (c : Nat) : Option Fmt := if c ≤ 7 then fmtOfCode c else none

/-! ### Frames -/

/-- A received frame's fields: destination, source, tag (priority, VLAN ID) if any, EtherType, and the octets after the
EtherType up to the frame check sequence. -/
structure EthFrame where
  dst : BitVec 48
  src : BitVec 48
  tag : Option (Nat × Nat)
  etype : Nat
  body : Octets
  deriving DecidableEq, Repr, Inhabited

/-- Reads a frame whose last four octets are the frame check sequence. -/
def ethFrame (x : Octets) : EthFrame :=
  let t := beAt 12 2 x
  let d := BitVec.ofNat 48 (beAt 0 6 x)
  let s := BitVec.ofNat 48 (beAt 6 6 x)
  let n := x.length - 4
  if t == 0x8100 then ⟨d, s, some (beAt 14 2 x / 8192, beAt 14 2 x % 4096), beAt 16 2 x, (x.take n).drop 18⟩
  else ⟨d, s, none, t, (x.take n).drop 14⟩

/-- The frame check sequence of the octets before it, in sending order (CRC-32 of R226, least significant octet first). -/
def fcsOf (x : Octets) : Octets := leBytes 4 (crcOf crc32 x)

/-- Row 1 of R115: the frame check sequence is right. -/
def fcsOk (x : Octets) : Bool := x.drop (x.length - 4) == fcsOf (x.take (x.length - 4))

/-- A frame as the Doldex sends it: header, tag when given, padding to 64 octets, frame check sequence (R115, R116). -/
def ethBytes (dst src : BitVec 48) (tag : Option (Nat × Nat)) (etype : Nat) (body : Octets) : Octets :=
  let h := beBytes 6 dst.toNat ++ beBytes 6 src.toNat ++
    (match tag with
     | some (p, v) => beBytes 2 0x8100 ++ beBytes 2 (p * 8192 + v)
     | none => []) ++ beBytes 2 etype ++ body
  let f := h ++ zeros (60 - h.length)
  f ++ fcsOf f

/-- Length L of a tagged frame with a body after the EtherType (R115). -/
def frameLength (body : Nat) : Nat := max 64 (18 + body + 4)

/-- Source address of frames that leave on local port p (R116). -/
def portAddress (p : Nat) : BitVec 48 := BitVec.ofNat 48 (0x02D000000000 + p)

/-- Destination address of a node (R130). -/
def nodeAddress (node : Nat) : BitVec 48 := BitVec.ofNat 48 (0x020000000000 + node * 65536)

/-- The octets of a Yuviette header and body (R123). -/
def yuvBytes (kind opcode fourth tag stream : Nat) (body : Octets) : Octets :=
  [0x01, BitVec.ofNat 8 kind, BitVec.ofNat 8 opcode, BitVec.ofNat 8 fourth] ++ beBytes 4 tag ++ beBytes 4 stream ++
    beBytes 2 body.length ++ zeros 2 ++ body

/-- The body that the header of a Yuviette frame delimits. -/
def yuvBody (y : Octets) : Octets := slice 16 (beAt 12 2 y) y

/-- The body runs past the frame. -/
def yuvPastEnd (y : Octets) : Bool := y.length < 16 + beAt 12 2 y

/-! ### Descriptor bodies -/

/-- The memory operation fields (R131). -/
def parseMemOp (b : Octets) : Option MemOp := do
  let sp ← spaceOfCode (octetAt 0 b)
  let c := octetAt 1 b
  okIf (if sp == .scratch then c < 16 else c == 0)
  some ⟨sp, c, beAt 4 4 b, beAt 8 8 b⟩

/-- A stream ID is reserved for device-local spaces (R131). -/
def memStreamOk (m : MemOp) (stream : Nat) : Bool := m.space == .global || stream == 0

/-- MEM_PUT, MEM_GET, MEM_ATOMIC. -/
def parseMem (h : DescHdr) (opcode : Nat) (b : Octets) : Option Instr := do
  okIf (32 ≤ b.length)
  let m ← parseMemOp b
  okIf (memStreamOk m h.stream)
  match opcode with
  | 0x10 =>
    okIf (zerosAt 2 2 b && zerosAt 16 16 b && 1 ≤ m.length && m.length ≤ 8192 && b.length == 32 + m.length)
    some (.memPut h m (slice 32 m.length b))
  | 0x11 =>
    okIf (zerosAt 2 2 b && zerosAt 16 16 b && 1 ≤ m.length && m.length ≤ 8192 && b.length == 32)
    some (.memGet h m)
  | _ =>
    let op ← atomicOfCode (octetAt 2 b)
    let w := octetAt 3 b
    okIf ((w == 4 || w == 8) && m.length == w && b.length == 32 && (op == .compareSwap || zerosAt 24 8 b))
    some (.memAtomic h m ⟨op, w, beAt 16 8 b, beAt 24 8 b⟩)

/-- SO_OP (R135). -/
def parseSync (h : DescHdr) (b : Octets) : Option Instr := do
  let id := beAt 0 2 b
  okIf (b.length == 16 && id < 16384 && zerosAt 3 1 b && zerosAt 12 4 b)
  match octetAt 2 b with
  | 1 => if zerosAt 8 4 b then some (.soAdd h id (beAt 4 4 b)) else none
  | 2 => some (.soWaitGe h id (beAt 4 4 b) (beAt 8 4 b))
  | 3 => if zerosAt 4 8 b then some (.soReset h id) else none
  | 4 => if zerosAt 4 8 b then some (.soRead h id) else none
  | _ => none

/-- PEAL_START (R150). -/
def parsePealStart (h : DescHdr) (b : Octets) : Option Instr := do
  let kind ← pealKindOfCode (octetAt 2 b)
  let inF ← pealFmt (octetAt 3 b)
  let outF ← pealFmt (octetAt 4 b)
  let fl := octetAt 5 b
  okIf (b.length == 64 && beAt 0 2 b < 4096 && fl < 4 && zerosAt 6 2 b && zerosAt 26 2 b && beAt 28 2 b < 16384 && zerosAt 30 2 b &&
    zerosAt 52 12 b && (bitOf fl 1 || (zerosAt 28 2 b && zerosAt 48 4 b)))
  some (.pealStart h
    { group := beAt 0 2 b, kind := kind, inFmt := inF, outFmt := outF, strict := bitOf fl 0, addSync := bitOf fl 1,
      peal := beAt 8 4 b, count := beAt 12 4 b, root := beAt 16 4 b, coord := fieldsAt 20 1 6 b, sync := beAt 28 2 b,
      src := beAt 32 8 b, dst := beAt 40 8 b, syncAmount := beAt 48 4 b })

/-- PEAL_STATUS (R167). -/
def parsePealStatus (h : DescHdr) (b : Octets) : Option Instr := do
  okIf (b.length == 16 && beAt 0 2 b < 4096 && zerosAt 2 2 b && zerosAt 14 2 b)
  some (.pealStatus h ⟨beAt 0 2 b, beAt 4 4 b, beAt 8 4 b, beAt 12 2 b⟩)

/-- GROUP_DEFINE, and the removal body whose fields but the group ID are all 0 (R144). -/
def parseGroupDefine (h : DescHdr) (b : Octets) : Option Instr := do
  okIf (b.length == 48 && octetAt 0 b == 0 && groupReservedOk 0 b)
  let g := groupAt 0 b
  if zerosAt 4 44 b then some (.groupRemove h g.group) else some (.groupDefine h g)

/-- PROG_LOAD (R218). -/
def parseProgLoad (h : DescHdr) (b : Octets) : Option Instr := do
  okIf (zerosAt 1 1 b && beAt 2 2 b < 256)
  let idx := beAt 2 2 b
  match octetAt 0 b with
  | 1 =>
    okIf (b.length == 128 && zerosAt 7 1 b && zerosAt 121 7 b)
    some (.progLoadBegin h
      { index := idx, clusters := beAt 4 2 b, cores := octetAt 6 b, entry := beAt 8 4 b, textLen := beAt 12 4 b,
        dataLen := beAt 16 4 b, watchdog := beAt 20 4 b, pubKey := slice 24 97 b })
  | 2 =>
    let c := beAt 8 4 b
    okIf (zerosAt 12 4 b && 1 ≤ c && c ≤ 8192 && b.length == 16 + c)
    some (.progLoadData h idx (beAt 4 4 b) (slice 16 c b))
  | 3 =>
    okIf (b.length == 104 && zerosAt 4 4 b)
    some (.progLoadEnd h idx (slice 8 96 b))
  | _ => none

/-- PROG_INVOKE (R220). -/
def parseProgInvoke (h : DescHdr) (b : Octets) : Option Instr := do
  let cl := octetAt 2 b
  let fl := octetAt 3 b
  okIf (b.length == 80 && beAt 0 2 b < 256 && (cl < 16 || cl == 0xFF) && fl < 2 && beAt 4 2 b < 16384 && zerosAt 6 2 b && zerosAt 12 4 b &&
    (bitOf fl 0 || (zerosAt 4 2 b && zerosAt 8 4 b)))
  some (.progInvoke h
    { index := beAt 0 2 b, cluster := cl, addSync := bitOf fl 0, sync := beAt 4 2 b, syncAmount := beAt 8 4 b,
      args := (fieldsAt 16 8 8 b).map (BitVec.ofNat 64) })

/-- TENSOR_LOAD (R242). -/
def parseTensor (h : DescHdr) (b : Octets) : Option Instr := do
  let s ← spaceOfCode (octetAt 1 b)
  let d ← spaceOfCode (octetAt 3 b)
  let t : TensorLoad := ⟨s, octetAt 2 b, d, octetAt 4 b, beAt 8 8 b, beAt 16 8 b, beAt 24 4 b⟩
  okIf (b.length == 32 && zerosAt 5 3 b && zerosAt 28 4 b && (s == .global || h.stream == 0))
  match octetAt 0 b with
  | 1 => some (.tensorPlace h t)
  | 2 => some (.tensorExpand h t)
  | _ => none

/-- The body of a descriptor by its opcode (R124). -/
def parseBody (h : DescHdr) (opcode : Nat) (b : Octets) : Option Instr :=
  match opcode with
  | 0x01 => parsePealStart h b
  | 0x10 | 0x11 | 0x12 => parseMem h opcode b
  | 0x32 => parseTensor h b
  | _ =>
    -- every other opcode leaves the stream ID field reserved (R124)
    if h.stream != 0 then none
    else match opcode with
      | 0x02 => parsePealStatus h b
      | 0x03 => parseGroupDefine h b
      | 0x20 => parseSync h b
      | 0x30 => parseProgLoad h b
      | 0x31 => parseProgInvoke h b
      | 0x40 => if b.length == 8 then some (.stepEnd h (beAt 0 8 b)) else none
      | 0x50 => if b.length == 16 && zerosAt 1 3 b && zerosAt 10 6 b then some (.counterRead h (octetAt 0 b) (beAt 4 4 b) (beAt 8 2 b)) else none
      | 0x51 => if b.length == 16 && zerosAt 0 2 b && zerosAt 12 4 b then some (.hintNextEvent h (beAt 0 8 b) (beAt 8 4 b)) else none
      | _ => none

/-- The header of a descriptor frame (R123). -/
def descHdr (port : LocalPort) (vlan : Nat) (cls : Class) (src : BitVec 48) (y : Octets) : DescHdr :=
  { port := port, vlan := vlan, cls := cls, src := src, wantCompletion := bitOf (octetAt 3 y) 0, fence := bitOf (octetAt 3 y) 1,
    tag := BitVec.ofNat 32 (beAt 4 4 y), stream := beAt 8 4 y % 1048576, units := 0 }

/-- A descriptor frame read into a command; none for BAD_DESCRIPTOR (R123). -/
def parseDescriptor (h : DescHdr) (y : Octets) : Option Instr := do
  okIf (octetAt 3 y < 4 && beAt 8 4 y < 1048576 && zerosAt 14 2 y && !yuvPastEnd y)
  parseBody h (octetAt 2 y) (yuvBody y)

/-- The body of a memory operation as it is sent (R131). -/
def memBody (sp : Space) (cluster atomic width length addr a b : Nat) (data : Octets) : Octets :=
  [BitVec.ofNat 8 (spaceCode sp), BitVec.ofNat 8 cluster, BitVec.ofNat 8 atomic, BitVec.ofNat 8 width] ++ beBytes 4 length ++
    beBytes 8 addr ++ beBytes 8 a ++ beBytes 8 b ++ data

/-- The site of a global address (R129). -/
def siteOf (addr : Nat) : Nat := addr / 2 ^ 56 % 256

/-- The node of a global address (R130). -/
def nodeOf (addr : Nat) : Nat := addr / 2 ^ 40 % 65536

end Sys2Proof.Machine
end

