-- ==== Sys2Proof/Machine/Switch.lean ====
section
/-! DEFINITION. The switch core: flow hash, candidates, buffers and their books, admission tests, writers and queues
(R246 to R264). -/

namespace Sys2Proof.Machine

/-- Die of a switch port (R15). -/
def dieOf (out : Nat) : Nat := if out < 64 then out / 16 else 4 + (out - 64) / 8

/-- The flow hash (R253). -/
def flowHash (p stream : Nat) : Nat := crcOf crc32c (beBytes 4 (p * 2 ^ 20 + stream))

/-- The candidate that a flow takes (R253). -/
def pickFlow {α : Type} (p stream : Nat) (c : List α) : Option α := if c.isEmpty then none else (c)[flowHash p stream % c.length]?

/-- Claim of a writer in units of 100 MB/s (R250). -/
def claimOf : Writer → Nat
  | .localIn _ => 2000
  | .lineIn _ => 2000
  | .descStage _ => 512
  | .carillonDma .. => 384
  | .clusterDma _ => 384

/-- What an output takes: four times its port rate (R251). -/
def claimLimit (out : Nat) : Nat := if out < 64 then 8000 else 8500

/-- Length of an item in octets: a frame with its check sequence, or the item's octets (R115, R255). -/
def loadLength : Load → Nat
  | .frame _ _ _ b => frameLength b.length
  | .stream _ _ _ b => b.length

/-- The octets that an item's buffer holds. -/
def loadOctets : Load → Octets
  | .frame _ _ _ b => b
  | .stream _ _ _ b => b

/-- Credit units of a frame of L octets (R118). -/
def unitsOf (l : Nat) : Nat := ceilDiv l 256

/-- Plane of a writer's descriptor stage for local port n. -/
def planeOf (n : Nat) : Nat := n / 16

namespace State

/-! ### Ports -/

/-- Local port n is enabled and in service (R20, R82, R85). -/
def portUp (s : State) (n : Nat) : Bool :=
  ((s.conf.portOf n).map (·.enabled)).getD false && (s.port n).inService && !(s.boot.localOff.contains n)

/-- Line port m is enabled and not retired (R82, R85, R28). -/
def lineUp (s : State) (m : Nat) : Bool :=
  ((s.conf.lineOf m).map (·.enabled)).getD false && (s.line m).inService

/-- An output is enabled, and a local one has its link up (R255 test 2). -/
def outUp (s : State) (o : Nat) : Bool := if o < 64 then s.portUp o && (s.port o).linkUp else s.lineUp (o - 64)

/-- A site is remote: an enabled LINE record names it (R129). -/
def siteRemote (s : State) (site : Nat) : Bool := s.conf.lines.any (fun l => l.enabled && l.site == site)

/-- Candidate line ports of a partition for a site, in order (R253, R254). -/
def lineCands (s : State) (p site : Nat) : List Nat :=
  (s.part p).candLines.filter (fun m => ((s.conf.lineOf m).map (fun l => l.site == site)).getD false)

/-- Candidate sets rebuilt: at a step boundary without the local ports whose link is down, at other changes of the map with
them (R254). -/
def rebuildCands (s : State) (p : Nat) (boundary : Bool) : State :=
  let ps := (s.part p).pairs.filter (fun x => s.portUp x.1 && (!boundary || (s.port x.1).linkUp))
  let mask := ((s.conf.partOf p).map PartRec.lineMask).getD 0
  let ls := (List.range 16).filter (fun m => mask.testBit m && s.lineUp m)
  s.updPart p (fun q => { q with candPairs := ps, candLines := ls })

/-! ### Items -/

/-- An item by number. -/
def item (s : State) (id : Nat) : Option Item := s.sw.items.find? (fun i => i.id == id)

/-- An item changed by `f`. -/
def updItem (s : State) (id : Nat) (f : Item → Item) : State :=
  { s with sw := { s.sw with items := mapWhen (fun i => i.id == id) f s.sw.items } }

/-- A producer offers an item; its admission is handed on (R248, R255). -/
def offer (s : State) (p cls : Nat) (w : Writer) (org : Origin) (l : Load) (outs : List (Nat × Nat)) (rx : Option (Nat × Nat)) : State :=
  let i : Item :=
    { id := s.sw.nextItem, part := p, cls := cls, len := loadLength l, writer := w, origin := org, load := l,
      outs := outs, stage := .offered, buf := none, rx := rx, lineBuf := none, ready := s.cycle }
  ({ s with sw := { s.sw with items := s.sw.items ++ [i], nextItem := s.sw.nextItem + 1 } }).hand (.itemAdmission i.id)

/-- Units of a frame that came since link-up are granted again (R118, R119). -/
def grantBack (s : State) (n units : Nat) : State :=
  (s.updPort n (fun q => { q with staged := q.staged - units, granted := (q.granted + units) % 2 ^ 32 })).hand
    (.creditFrameTx (fin64 n))

/-- Units of a checked frame are free. Those of a frame that came before the link last went down belong to no count after it (R119,
R122; log entry 11). -/
def giveUnits (s : State) (n units : Nat) : State :=
  if 0 < (s.port n).stale then s.updPort n (fun q => { q with stale := q.stale - units }) else s.grantBack n units

/-- The checked frame of a local port leaves the receive stage: its units are free, and the frame behind it goes on (R121, R249). -/
def freeRx (s : State) (n units : Nat) : State :=
  let q := s.port n
  let s := s.giveUnits n units
  match q.rxq with
  | [] => s.updPort n (fun q => { q with inRx := false })
  | (p, t, x) :: r => (s.updPort n (fun q => { q with rxq := r, rxAt := t })).resume p (.localFrameRx (fin64 n) x)

/-- An item lets go of its frame in the receive stage; the frame leaves with the last item made of it (R249, R373). -/
def freeItemRx (s : State) (i : Item) : State :=
  match i.rx with
  | none => s
  | some (n, u) =>
    let s := s.updItem i.id (fun x => { x with rx := none })
    if s.sw.items.any (fun j => j.id != i.id && j.rx.any (fun x => x.1 == n)) then s else s.freeRx n u

/-! ### Pools and buffers (R257 to R260) -/

/-- Pool k of die d. -/
def pool (s : State) (d k : Nat) : Pool := s.sw.pools.getD (4 * d + k) Pool.reset

/-- Pool k of die d changed. -/
def updPool (s : State) (d k : Nat) (f : Pool → Pool) : State :=
  { s with sw := { s.sw with pools := s.sw.pools.set (4 * d + k) (f (s.pool d k)) } }

/-- Buffers of a partition allocated in a pool (R263). -/
def allocated (s : State) (p d k : Nat) : Nat := s.sw.bufs.countP (fun b => b.part == p && b.die == d && b.pool == k)

/-- Buffers of a partition quarantined in a pool (R260). -/
def quarantined (s : State) (p d k : Nat) : Nat := (s.pool d k).quarantined.countP (fun q => q.2 == p)

/-- A partition's free share in a pool, in buffers (R264). -/
def freeShare (s : State) (p d k : Nat) : Nat := s.conf.share p d k - s.allocated p d k - s.quarantined p d k

/-- F: free octets of a partition's shares in all pools of a die (R255). -/
def freeOctetsOf (s : State) (p d : Nat) : Nat :=
  ((List.range (poolBufSizes d).length).map (fun k => s.freeShare p d k * (s.pool d k).bufSize)).sum

/-- The pool that test 3 chooses: the smallest buffer size that holds the item and has a free share (R255). A pool with no buffer left
gives none: ports disabled at start may leave a line die's pools smaller than the shares in them (log entry 11). -/
def fitPool (s : State) (p d len : Nat) : Option Nat :=
  (List.range (poolBufSizes d).length).find? (fun k =>
    decide (len ≤ (s.pool d k).bufSize) && decide (0 < s.freeShare p d k) && decide (0 < (s.pool d k).free))

/-- A buffer taken from the top of its stack, with its holders counted (R257 to R259). -/
def allocBuf (s : State) (p d k refs : Nat) : Nat × State :=
  let q := s.pool d k
  let r : Nat × Pool := match q.freed with
    | (a, _) :: rest => (a, { q with freed := rest })
    | [] => (q.fresh, { q with fresh := q.fresh + 1 })
  let q' := { r.2 with low := min q.low r.2.free }
  let s := s.updPool d k (fun _ => q')
  (r.1, { s with sw := { s.sw with bufs := s.sw.bufs ++ [⟨d, k, r.1, p, refs, 0, [], false⟩] } })

/-- The buffer of a pointer. -/
def buf (s : State) (b : Nat × Nat × Nat) : Option Buf :=
  s.sw.bufs.find? (fun x => x.die == b.1 && x.pool == b.2.1 && x.ptr == b.2.2)

/-- A buffer changed by `f`. -/
def updBuf (s : State) (b : Nat × Nat × Nat) (f : Buf → Buf) : State :=
  { s with sw := { s.sw with bufs := mapWhen (fun x => x.die == b.1 && x.pool == b.2.1 && x.ptr == b.2.2) f s.sw.bufs } }

/-- `n` octets from `off` of a buffer: zeros beyond its fill length, and from one that is not allocated (R258). -/
def readBuf (s : State) (b : Nat × Nat × Nat) (off n : Nat) : Octets :=
  fitTo n 0 (slice off n ((s.buf b).elim [] (fun x => x.data.take x.fill)))

/-- Items of a partition that wait for buffer space on a die, heads of their queues, in the order in which they began
waiting (R256). -/
def waitHeads (s : State) (p d : Nat) : List Nat :=
  let ws := s.sw.items.filter (fun i => i.stage == .wantsBuffer && i.part == p && i.outs.any (fun o => dieOf o.1 == d))
  (ws.filter (fun i => !(ws.any (fun j => decide (j.id < i.id) && j.cls == i.cls && j.outs.map Prod.fst == i.outs.map Prod.fst)))).map
    Item.id

/-- Received items of a partition that wait for a buffer on a die (R321). -/
def waitingCtxs (s : State) (p d : Nat) : List CtxKey :=
  (s.ctxs.filter (fun c => c.waitBuffer.isSome && c.part == p && 4 + lineDie c.rxLine == d)).map Ctx.key

/-- Freed space of a partition on a die has the heads of its waiting queues retested (R256, R321). -/
def retest (s : State) (p d : Nat) : State :=
  (s.waitingCtxs p d).foldl (fun s k => s.hand (.reassemblyBufferGrant k))
    ((s.waitHeads p d).foldl (fun s i => s.hand (.itemAdmission i)) s)

/-- A buffer leaves the allocated ones, and its pool is changed by `f`. -/
def takeBuf (s : State) (b : Nat × Nat × Nat) (f : Pool → Pool) : State :=
  ({ s with sw := { s.sw with
      bufs := s.sw.bufs.filter (fun y => !(y.die == b.1 && y.pool == b.2.1 && y.ptr == b.2.2)), pushes := s.sw.pushes.filter (· != b) } }
    : State).updPool b.1 b.2.1 f

/-- A decrement that found a count at 0 is counted and logged, for the partition that held the buffer (R260). -/
def countFault (s : State) (b : Nat × Nat × Nat) (p : Nat) : State :=
  (s.bump (.bufQuarantined b.1 b.2.1)).raise 0x0501 (some p) (oct 1 ++ oct b.1 ++ oct b.2.1)

/-- A holder lets go of a buffer. At 0 it waits to be pushed, allocated still; a decrement that finds 0 moves it from allocated to
quarantined. One that has been pushed already is taken from the free ones, as far as the share of the partition that held it leaves
room for it (R259, R260, R264; log entry 11). -/
def decRef (s : State) (b : Nat × Nat × Nat) : State :=
  match s.buf b with
  | some x =>
    if x.refs == 0 then (s.takeBuf b (fun q => { q with quarantined := q.quarantined ++ [(b.2.2, x.part)] })).countFault b x.part
    else if x.refs == 1 then
      let s := s.updBuf b (fun y => { y with refs := 0 })
      { s with sw := { s.sw with pushes := s.sw.pushes ++ [b] } }
    else s.updBuf b (fun y => { y with refs := y.refs - 1 })
  | none =>
    match (s.pool b.1 b.2.1).freed.find? (fun f => f.1 == b.2.2) with
    | some f =>
      (if 0 < s.freeShare f.2 b.1 b.2.1 then
        s.updPool b.1 b.2.1 (fun q => { q with freed := q.freed.filter (fun y => y.1 != b.2.2), quarantined := q.quarantined ++ [f] })
       else s).countFault b f.2
    | none => s

/-- A buffer with no holder is pushed onto its stack, and what waits for space is tested again; one of a faulty bank stays out until
the next start or wake, booked as quarantined (R26, R256, R257, R259, R412; log entry 11). -/
def pushBuf (s : State) (b : Nat × Nat × Nat) : State :=
  match s.buf b with
  | some x =>
    if x.refs == 0 then
      (s.takeBuf b (fun q => if x.bad then { q with quarantined := q.quarantined ++ [(b.2.2, x.part)] }
        else { q with freed := (b.2.2, x.part) :: q.freed })).retest x.part b.1
    else s
  | none => s

/-- The buffers that wait to be pushed are pushed: it takes at most 2 SCLK cycles (R259). -/
def pushBufs (s : State) : State :=
  let ps := s.sw.pushes
  ps.foldl pushBuf ({ s with sw := { s.sw with pushes := [] } } : State)

/-- A later holder adds itself to a buffer; false where the count would pass 65,535 (R259). -/
def incRef (s : State) (b : Nat × Nat × Nat) : Bool × State :=
  match s.buf b with
  | some x => if x.refs < 65535 then (true, s.updBuf b (fun y => { y with refs := y.refs + 1 })) else (false, s)
  | none => (false, s)

/-! ### Queues (R255) -/

/-- The queue of an output, class and partition; empty where none is listed. -/
def queueOf (s : State) (o c p : Nat) : Queue :=
  (s.sw.queues.find? (fun q => q.out == o && q.cls == c && q.part == p)).getD ⟨o, c, p, [], 0, 0⟩

/-- A queue set; one with nothing in it is not listed. -/
def putQueue (s : State) (q : Queue) : State :=
  let rest := s.sw.queues.filter (fun x => !(x.out == q.out && x.cls == q.cls && x.part == q.part))
  { s with sw := { s.sw with queues := if q.entries.isEmpty && q.octets == 0 && q.deficit == 0 then rest else rest ++ [q] } }

/-- A queue changed by `f`. -/
def updQueue (s : State) (o c p : Nat) (f : Queue → Queue) : State := s.putQueue (f (s.queueOf o c p))

/-- An item's charge leaves a queue: the entry itself and the octets of its buffer (R255). -/
def unqueue (s : State) (i : Item) (o size : Nat) : State :=
  s.updQueue o i.cls i.part (fun q =>
    let es := q.entries.filter (fun e => e != i.id)
    { q with entries := es, octets := q.octets - size, deficit := if es.isEmpty then 0 else q.deficit })

/-- Size of the buffer that an item holds. -/
def itemSize (s : State) (i : Item) : Nat := (i.buf.map (fun b => (s.pool b.1 b.2.1).bufSize)).getD 0

/-- Among the items of a writer that have their buffers, the one that it writes or waits to write (R250). -/
def writerBusy (s : State) (w : Writer) : Bool :=
  s.sw.items.any (fun i => i.writer == w && (i.stage == .writing || (i.stage == .wantsOutput && i.outs.any (fun o => (s.outPort o.1).waiting.contains i.id))))

/-- A writer that is free takes up the item whose buffer it has had longest, which is ready from then on (R250, R251). -/
def nextWrite (s : State) (w : Writer) : State :=
  if s.writerBusy w then s
  else match sortBy (fun a b => decide (a.ready ≤ b.ready)) (s.sw.items.filter (fun i => i.writer == w && i.stage == .wantsOutput)) with
    | [] => s
    | i :: _ =>
      i.outs.foldl (fun s o => (s.updOut o.1 (fun q => { q with waiting := q.waiting ++ [i.id] })).hand (.writerAdmit (fin80 o.1)))
        (s.updItem i.id (fun x => { x with ready := s.cycle }))

/-- A line ingress item lets go of its Basalt buffer (R264). -/
def freeLineBuf (s : State) (i : Item) : State :=
  match i.lineBuf with
  | some b => (s.updItem i.id (fun x => { x with lineBuf := none })).decRef b
  | none => s

/-- The time that a local ingress has held its frame under R251 is counted (R263). -/
def countHold (s : State) (i : Item) : State :=
  match i.writer with
  | .localIn n => if i.stage == .wantsOutput then s.bumpBy (.holdNs n) ((s.cycle - i.ready) * 10) else s
  | _ => s

/-- One entry of an item leaves: the queue shrinks, the writer's claim and place go, the buffer is let go of, and the item
goes with its last entry (R251, R256, R259). -/
def dropEntry (s : State) (id o : Nat) : State :=
  match s.item id with
  | none => s
  | some i =>
    let sz := s.itemSize i
    let rest := i.outs.filter (fun x => x.1 != o)
    let s := if i.buf.isSome then s.unqueue i o sz else s
    let s := s.updOut o (fun q => { q with writing := q.writing.filter (· != id), waiting := q.waiting.filter (· != id) })
    let s := if (s.outPort o).waiting.isEmpty then s else s.hand (.writerAdmit (fin80 o))
    let s := match i.buf with
      | some b => s.decRef b
      | none => s
    if rest.isEmpty then
      let s := ((s.freeItemRx i).freeLineBuf i).countHold i
      let s : State := { s with sw := { s.sw with items := s.sw.items.filter (fun x => x.id != id) } }
      let s := if i.stage == .writing || i.stage == .wantsOutput then s.nextWrite i.writer else s
      s.retest i.part (dieOf o)
    else (s.updItem id (fun x => { x with outs := rest })).retest i.part (dieOf o)

/-- Every entry of an item leaves. -/
def dropItem (s : State) (id : Nat) : State :=
  match s.item id with
  | none => s
  | some i => i.outs.foldl (fun s o => s.dropEntry id o.1) s

/-! ### Admission tests (R255) -/

/-- Tests 4 and 5 for one entry, with the buffer size that test 3 chose (R255). -/
def entryFits (s : State) (i : Item) (size o : Nat) : Bool :=
  let q := s.queueOf o i.cls i.part
  let lim := s.conf.limitsOf i.part
  let t4 := ((lim.map (·.limits)).getD []).all (fun l => !(l.1 == o && l.2.1 == i.cls) || decide (q.octets + size ≤ l.2.2))
  let k : Int := (lim.map LimitsRec.k).getD 0
  let f := s.freeOctetsOf i.part (dieOf o)
  let t5 := if k ≥ 0 then decide (q.octets + size ≤ f * 2 ^ k.toNat) else decide ((q.octets + size) * 2 ^ (-k).toNat ≤ f)
  t4 && t5

/-- Test 1: a local output's pair maps to the item's partition (R255). -/
def entryMapped (s : State) (i : Item) (o : Nat × Nat) : Bool := decide (64 ≤ o.1) || (s.part i.part).pairs.contains o

/-- Tests 3 to 5 for the surviving entries of an item: the pool that gives its buffer (R255). -/
def placeItem (s : State) (i : Item) : Option Nat :=
  match i.outs with
  | [] => none
  | o :: _ =>
    match s.fitPool i.part (dieOf o.1) i.len with
    | some k => if i.outs.all (fun x => s.entryFits i (s.pool (dieOf o.1) k).bufSize x.1) then some k else none
    | none => none

/-- An item gets its buffer and waits for its writer, and then for its outputs in ready order (R250, R251, R255, R258). -/
def giveBuffer (s : State) (i : Item) (k : Nat) : State :=
  let d := (i.outs.head?.map (fun o => dieOf o.1)).getD 0
  let a := s.allocBuf i.part d k i.outs.length
  let size := (s.pool d k).bufSize
  let s := i.outs.foldl (fun s o => s.updQueue o.1 i.cls i.part (fun q => { q with octets := q.octets + size })) a.2
  (s.updItem i.id (fun x => { x with stage := .wantsOutput, buf := some (d, k, a.1), ready := s.cycle })).nextWrite i.writer

/-- Sum of the claims on an output (R251). -/
def claims (s : State) (o : Nat) : Nat :=
  ((s.outPort o).writing.filterMap (fun id => (s.item id).map (fun i => claimOf i.writer))).sum

/-- A waiting item may start to write: at the head of each of its outputs, and its claim fits in each (R251). -/
def mayWrite (s : State) (i : Item) : Bool :=
  i.outs.all (fun o => (s.outPort o.1).waiting.head? == some i.id && decide (s.claims o.1 + claimOf i.writer ≤ claimLimit o.1))

/-- The item at the head of an output's waiting writers is admitted when it may be; the next is tried after it (R251). -/
def admitWriter (s : State) (o : Nat) : State :=
  match (s.outPort o).waiting.head?.bind s.item with
  | none => s
  | some i =>
    if s.mayWrite i then
      let s := i.outs.foldl (fun s x => s.updOut x.1 (fun q => { q with waiting := q.waiting.drop 1, writing := q.writing ++ [i.id] })) s
      let s := s.countHold i
      let s := (s.updItem i.id (fun x => { x with stage := .writing })).hand (.itemWriteDone i.id)
      if (s.outPort o).waiting.isEmpty then s else s.hand (.writerAdmit (fin80 o))
    else s

/-- An item's last octet is written: the fill length is its length, its receive stage is freed, its claims end, and it
joins its queues (R249, R251, R255, R258). -/
def writeDone (s : State) (i : Item) : State :=
  let s := match i.buf with
    | some b => s.updBuf b (fun x => { x with fill := i.len, data := loadOctets i.load })
    | none => s
  let s := ((s.freeItemRx i).freeLineBuf i).updItem i.id (fun x => { x with stage := .queued })
  let s := i.outs.foldl (fun s o =>
    let s := s.updOut o.1 (fun q => { q with writing := q.writing.filter (· != i.id) })
    let s := s.updQueue o.1 i.cls i.part (fun q => { q with entries := q.entries ++ [i.id] })
    let s := if (s.outPort o.1).waiting.isEmpty then s else s.hand (.writerAdmit (fin80 o.1))
    if o.1 < 64 then s.hand (.outputSelect (fin64 o.1)) else s) s
  s.nextWrite i.writer

end State

/-! ### Meanings -/

/-- WRITER_ADMIT (R251). -/
def execWriterAdmit (out : Fin 80) (s : State) : Host.Outcome State Fault Refusal := .next (s.admitWriter out)

/-- ITEM_WRITE_DONE (R249): an item that is being written. -/
def execItemWriteDone (item : Nat) (s : State) : Host.Outcome State Fault Refusal :=
  match s.item item with
  | some i => .next (if i.stage == .writing then s.writeDone i else s)
  | none => .next s

/-- REFCOUNT_DECREMENT (R259, R260). -/
def execRefcountDecrement (die : DieId) (pool ptr : Nat) (s : State) : Host.Outcome State Fault Refusal :=
  .next (s.decRef (die, pool, ptr))

end Sys2Proof.Machine
end

