-- ==== Sys2Proof/Machine/Outputs.lean ====
section
/-! DEFINITION. Serving an output: gates, shapers, deficit round robin, link credit, Snare samples and the PTP correction
(R63, R118 to R121, R265 to R277, R371 to R374). -/

namespace Sys2Proof.Machine

/-! ### Gates (R269 to R271) -/

/-- The entry in force at a position in 2^−28 ns, as the list turned to start with it, and the time already spent in it. -/
def gateTurn : List GateEntry → List GateEntry → Nat → List GateEntry × Nat
  | [], seen, pos => (seen.reverse, pos)
  | e :: r, seen, pos => if pos < e.interval * 2 ^ 28 then (e :: r ++ seen.reverse, pos) else gateTurn r (e :: seen) (pos - e.interval * 2 ^ 28)

/-- Position of a Quartz time in a GATE record's cycle, both in 2^−28 ns (R269). -/
def gatePos (g : GateRec) (t : Nat) : Nat :=
  (((t : Int) - ((g.baseSecs * 1000000000 + g.baseNs) * 2 ^ 28 : Nat)) % ((g.cycle * 2 ^ 28 : Nat) : Int)).toNat

/-- Time, in 2^−28 ns, that the run of entries satisfying `ok` still lasts; none when it never ends (R270). -/
def runLeft (ok : GateEntry → Bool) (turned : List GateEntry) (spent : Nat) : Option Nat :=
  if turned.all ok then none else some (((turned.takeWhile ok).map (·.interval)).sum * 2 ^ 28 - spent)

/-- The correction of a PTP event message in ns × 2^16 (R374): residence in half ns, asymmetries in ps. -/
def ptpCorrection (type : Nat) (residence asymIn asymOut : Int) : Option Int :=
  let r : Int := residence * 32768
  match type with
  | 0 => some (r + rneDiv (asymIn * 65536) 1000)
  | 1 => some (r - rneDiv (asymOut * 65536) 1000)
  | 2 => some r
  | 3 => some r
  | _ => none

/-- The correctionField after a correction, clamped at the top (R374). -/
def ptpField (old : Nat) (c : Int) : Nat :=
  let v := signedOf 64 old + c
  if old == 0x7FFFFFFFFFFFFFFF || v > 0x7FFFFFFFFFFFFFFF then 0x7FFFFFFFFFFFFFFF else unsignedOf 64 v

namespace State

/-- GATE record of a switch port. -/
def gate (s : State) (o : Nat) : Option GateRec := s.conf.gates.find? (fun g => g.port == o)

/-- Quartz time in 2^−28 ns (R358). -/
def fineNow (s : State) : Nat := s.now * 2 ^ 28 + s.quartz.frac

/-- Within the present KCLK cycle, the time in ps after its start at which a local output is free (R268). -/
def freeIn (s : State) (o : Nat) : Nat := (s.outPort o).busy - s.cycle * 10000

/-- A local output is free, at some moment of the present KCLK cycle (R265, R268). -/
def outFree (s : State) (o : Nat) : Bool := decide (s.freeIn o < 10000)

/-- The moment of choice of an output in Quartz time, in 2^−28 ns: when a local output is free in this cycle, and the start of a line
output's slot as its port's timestamp gives it (R268, R270). -/
def choiceTime (s : State) (o : Nat) : Nat :=
  if o < 64 then s.fineNow + s.freeIn o * 2 ^ 28 / 1000 else (s.line (o - 64)).slotAt * 2 ^ 27

/-- The entry in force at a switch port at a Quartz time in 2^−28 ns, the list turned to it and the time spent in it (R269). -/
def gateAt (s : State) (o t : Nat) : Option (List GateEntry × Nat) := (s.gate o).map (fun g => gateTurn g.entries [] (gatePos g t))

/-- The entry in force at a switch port at the moment of choice (R269, R270). -/
def gateNow (s : State) (o : Nat) : Option (List GateEntry × Nat) := s.gateAt o (s.choiceTime o)

/-- Class c is open in the entry in force (R265, R269). -/
def classOpen (s : State) (o c : Nat) : Bool :=
  match s.gateNow o with
  | none => true
  | some (e :: _, _) => e.mask.testBit c
  | some ([], _) => true

/-- Time left before class c closes, in 2^−28 ns; none when it never does (R270). -/
def closesIn (s : State) (o c : Nat) : Option Nat :=
  match s.gateNow o with
  | none => none
  | some (t, spent) => runLeft (fun e => e.mask.testBit c) t spent

/-- An occupancy in ps fits before class c closes (R270). -/
def occupancyFits (s : State) (o c ps : Nat) : Bool :=
  match s.closesIn o c with
  | none => true
  | some n => decide (ps * 2 ^ 28 ≤ n * 1000)

/-! ### Shapers (R273 to R276) -/

/-- SHAPER record of a class. -/
def shaper (s : State) (o c : Nat) : Option ShaperRec := s.conf.shapers.find? (fun x => x.port == o && x.cls == c)

/-- Cost of an item of length L (R274). -/
def shaperCost (x : ShaperRec) (len : Nat) : Nat := if x.withOverhead then len + x.overhead else len

/-- Tokens of a class, in 2^−32 octets. -/
def tokens (s : State) (o c : Nat) : Nat := ((s.sw.buckets.find? (fun b => b.port == o && b.cls == c)).map Bucket.tokens).getD 0

/-- The shaper holds at least the cost of L octets (R265, R273). -/
def tokensFor (s : State) (o c len : Nat) : Bool :=
  match s.shaper o c with
  | none => true
  | some x => decide (shaperCost x len * 2 ^ 32 ≤ s.tokens o c)

/-- The cost of L octets is taken (R273). -/
def spend (s : State) (o c len : Nat) : State :=
  match s.shaper o c with
  | none => s
  | some x =>
    let bs := mapWhen (fun b => b.port == o && b.cls == c) (fun b => { b with tokens := b.tokens - shaperCost x len * 2 ^ 32 }) s.sw.buckets
    { s with sw := { s.sw with buckets := bs } }

/-- Token buckets of the running configuration, full or empty (R276). -/
def resetBuckets (s : State) : State :=
  { s with sw := { s.sw with buckets := s.conf.shapers.map (fun x => ⟨x.port, x.cls, if x.startFull then x.depth * 2 ^ 32 else 0⟩) } }

/-- Tokens of one KCLK cycle (R273): rate / 8 octets per second for 10 ns, to the 2^−32 octet below. -/
def tickShapers (s : State) : State :=
  let bs := s.sw.buckets.map (fun b =>
    match s.shaper b.port b.cls with
    | some x => { b with tokens := min (x.depth * 2 ^ 32) (b.tokens + x.rate * 2 ^ 32 / 800000000) }
    | none => b)
  { s with sw := { s.sw with buckets := bs } }

/-! ### Local outputs (R265 to R268) -/

/-- The item at the head of a queue. -/
def headItem (s : State) (o c p : Nat) : Option Item := ((s.queueOf o c p).entries.head?).bind s.item

/-- Partitions with an entry in a class of an output, ascending (R266). -/
def queuedParts (s : State) (o c : Nat) : List Nat :=
  (List.range 64).filter (fun p => s.sw.queues.any (fun q => q.out == o && q.cls == c && q.part == p && !q.entries.isEmpty))

/-- Time that an item holds a local output, in ps (R268). -/
def localOccupancy (len : Nat) : Nat := (len + 20) * 5

/-- Conditions 1 to 3 of R265 for the head of a queue of a local output. -/
def eligible (s : State) (o c p : Nat) : Bool :=
  match s.headItem o c p with
  | some i => s.classOpen o c && s.occupancyFits o c (localOccupancy i.len) && s.tokensFor o c i.len
  | none => false

/-- Partitions in the order of the round: after the one served last, wrapping (R266). -/
def roundFrom (last : Nat) (ps : List Nat) : List Nat := ps.filter (fun p => decide (last < p)) ++ ps.filter (fun p => decide (p ≤ last))

/-- The partition served last in a class of an output; none before the first. -/
def lastServed (s : State) (o c : Nat) : Option Nat := ((s.outPort o).last[c]?).bind (fun n => if n < 64 then some n else none)

/-- The partition served last, noted. -/
def noteServed (s : State) (o c p : Nat) : State :=
  s.updOut o (fun q =>
    let l := if q.last.length == 8 then q.last else List.replicate 8 64
    { q with last := l.set c p })

/-- The choice of a local output: class, item, and the deficit its queue has then (R265, R266). -/
def chooseLocal (s : State) (o : Nat) : Option (Nat × Item × Nat) := do
  let c ← ([7, 6, 5, 4, 3, 2, 1, 0]).find? (fun c => (s.queuedParts o c).any (fun p => s.eligible o c p))
  let ps := (s.queuedParts o c).filter (fun p => s.eligible o c p)
  let stay : Option (Nat × Nat) := do
    let p ← s.lastServed o c
    let i ← s.headItem o c p
    if ps.contains p && decide (i.len ≤ (s.queueOf o c p).deficit) then pure (p, (s.queueOf o c p).deficit) else none
  let (p, d) ← stay.orElse (fun _ =>
    (match s.lastServed o c with
     | some l => roundFrom l ps
     | none => ps).head?.map (fun p => (p, (s.queueOf o c p).deficit + 9216)))
  let i ← s.headItem o c p
  pure (c, i, d)

/-- Link credit that a local output has (R120). -/
def credit (s : State) (n : Nat) : Nat := serialDiff 32 (s.port n).peerGranted (s.port n).consumed

/-- The timestamp of switch port o for a frame that its capture circuit sees at a Quartz time in 2^−28 ns: to 0.5 ns by rne, and
corrected for the latency between the circuit and the reference plane, in half ns (R371). -/
def stampAt (s : State) (o : Nat) (received : Bool) (t : Nat) : Nat :=
  let d := s.fixed.latency.getD (2 * o + (if received then 0 else 1)) 0
  (rneDiv t (2 ^ 27) + (if received then -d else d)).toNat

/-- The timestamp of a switch port now (R371). -/
def stamp (s : State) (o : Nat) (received : Bool) : Nat := s.stampAt o received s.fineNow

/-! ### Snare (R63) -/

/-- A sample joins the queue of the management core, or is dropped where the queue is full and while the firmware restarts (R63, R413,
R415). -/
def takeSample (s : State) (port : Nat) (received : Bool) (p : Nat) (x : Octets) : State :=
  if s.snare.length < Config.snareDepth && !s.boot.fwDown then
    let t := s.stamp port received
    { s with snare := s.snare ++ [⟨port, received, t / 2000000000, t % 2000000000 / 2, p, x⟩] }
  else s.bump .snareDrop

/-- Every N-th frame of a local port and direction is sampled, N = 2^k (R63). The rule says only 'on each port': a count for each
direction is the model's (log entry 11). -/
def snareLocal (s : State) (n : Nat) (received : Bool) (p : Nat) (frame : Octets) : State :=
  let k := ((s.conf.portOf n).map PortRec.snare).getD 0
  if k == 0 then s
  else
    let c := if received then (s.port n).snareRx + 1 else (s.port n).snareTx + 1
    let s := s.updPort n (fun q => if received then { q with snareRx := c % 2 ^ k } else { q with snareTx := c % 2 ^ k })
    if c % 2 ^ k == 0 then s.takeSample n received p (frame.take 18) else s

/-! ### Starting an item (R120, R265 to R274, R374) -/

/-- The octets of a frame as a local output sends it, with the PTP correction made now (R116, R374). -/
def frameFor (s : State) (o vlan : Nat) (i : Item) : Octets :=
  match i.load with
  | .frame dst src etype body =>
    let body := i.buf.elim body (fun x => s.readBuf x 0 body.length)
    let b := match i.origin with
      | .ptp n t =>
        let asym := fun k => ((s.conf.portOf k).map PortRec.asym).getD 0
        match ptpCorrection (octetAt 0 body % 16) ((s.stampAt o false (s.choiceTime o) : Int) - (t : Int)) (asym n) (asym o) with
        | some c => patch 8 (beBytes 8 (ptpField (beAt 8 8 body) c)) body
        | none => body
      | _ => body
    ethBytes dst (src.getD (portAddress o)) (some (i.cls, vlan)) etype b
  | .stream _ _ _ b => b

/-- A local output starts an item, and holds it for its occupancy (R120, R266, R268, R273, R277). -/
def startLocal (s : State) (o c : Nat) (i : Item) (d : Nat) : State :=
  let vlan := ((i.outs.find? (fun x => x.1 == o)).map Prod.snd).getD 0
  let f := s.frameFor o vlan i
  let s := s.updOut o (fun q => { q with busy := max q.busy (s.cycle * 10000) + localOccupancy i.len })
  let s := (s.noteServed o c i.part).updQueue o c i.part (fun q => { q with deficit := d - i.len })
  let s := (s.spend o c i.len).updPort o (fun q => { q with consumed := (q.consumed + unitsOf i.len) % 2 ^ 32 })
  let s := (s.bumpBy (.outCls i.part o c 0) i.len).bump (.outCls i.part o c 1)
  let s := match i.origin with
    | .ptp _ _ => s.bump (.outPort i.part o 3)
    | _ => s
  ((s.emit (.frame o f)).snareLocal o false i.part f).dropEntry i.id o

/-- The waits of one KCLK cycle of a local output that is free: shapers; the guard band, where no head is eligible; credit (R267,
R277). -/
def tickWaits (s : State) (o : Nat) : State :=
  let heads := (List.range 8).flatMap (fun c => ((s.queuedParts o c).filterMap (fun p => (s.headItem o c p).map (fun i => (c, i)))))
  let s := (heads.filter (fun x => s.classOpen o x.1 && s.occupancyFits o x.1 (localOccupancy x.2.len) && !(s.tokensFor o x.1 x.2.len))).map
    Prod.fst |>.eraseDups.foldl (fun s c => s.bumpBy (.shaperNs o c) 10) s
  let s := if (s.chooseLocal o).isNone && heads.any (fun x => s.classOpen o x.1 && !(s.occupancyFits o x.1 (localOccupancy x.2.len)) && s.tokensFor o x.1 x.2.len)
    then s.bumpBy (.guardNs o) 10 else s
  match s.chooseLocal o with
  | some (_, i, _) => if s.credit o < unitsOf i.len then s.bumpBy (.creditNs o) 10 else s
  | none => s

/-- One KCLK cycle of a local output that holds an entry: while it is free and its link is up its waits count, and it chooses again
(R265, R267, R268, R277). -/
def tickOutput (s : State) (o : Nat) : State :=
  if s.outFree o && (s.port o).linkUp then (s.tickWaits o).handOnce (.outputSelect (fin64 o)) else s

/-- One KCLK cycle, over the local outputs that hold an entry. The waits of line outputs are counted slot by slot (R277). -/
def tickOutputs (s : State) : State :=
  ((s.sw.queues.filter (fun q => decide (q.out < 64) && !q.entries.isEmpty)).map Queue.out).eraseDups.foldl tickOutput s

end State

/-- OUTPUT_SELECT (R265 to R268): a free local output starts its choice when the link is up and the credit suffices. -/
def execOutputSelect (port : LocalPort) (s : State) : Host.Outcome State Fault Refusal :=
  if (s.port port).linkUp && s.outFree port then
    match s.chooseLocal port with
    | some (c, i, d) => .next (if unitsOf i.len ≤ s.credit port then s.startLocal port c i d else s)
    | none => .next s
  else .next s

end Sys2Proof.Machine
end

