-- ==== Sys2Proof/Machine/Descriptors.lean ====
section
/-! DEFINITION. What every Yuviette descriptor shares: completions, the order of its statuses, acceptance, holding and
fences (R123 to R127, R138), and the window checks of R45 to R50 with the device-local memories they guard. -/

namespace Sys2Proof.Machine

/-- Opcodes whose OK completion is always sent: they return data, or their own rule sends it (R125, R154, R222, R244). -/
def alwaysCompletes (op : Nat) : Bool := [0x01, 0x02, 0x11, 0x12, 0x20, 0x31, 0x32, 0x40, 0x50].contains op

/-- Opcodes that a waiting STEP_END holds back (R138). -/
def stepHolds (op : Nat) : Bool := [0x01, 0x03, 0x30, 0x31, 0x32].contains op

/-- Opcodes that a HALTED partition still answers (R43). -/
def haltedAnswers (op : Nat) : Bool := op == 0x02 || op == 0x50

/-- Rights that an access needs: read, write, atomic, inbound (R46). -/
structure Rights where
  r : Bool
  w : Bool
  a : Bool
  i : Bool
  deriving DecidableEq, Repr, Inhabited

/-- A read (R46). -/
def Rights.read : Rights := ⟨true, false, false, false⟩
/-- A write (R46). -/
def Rights.write : Rights := ⟨false, true, false, false⟩
/-- An atomic (R46). -/
def Rights.atomic : Rights := ⟨false, false, true, false⟩
/-- The same access arriving from the line, which also needs I (R46). -/
def Rights.inbound (x : Rights) : Rights := { x with i := true }

/-- Window kind of a space (R45). -/
def spaceKind : Space → Nat
  | .global => 1
  | .scratch => 2
  | .basalt => 3
  | .coreData => 0

/-- Pages of 64 KiB of a mirrored window (R401). -/
def pagesOf (w : Window) : Nat := ceilDiv (w.limit - w.base) 65536

/-- The granule of an LR/SC reservation: 8 octets (R198). -/
def granuleOf (a : Nat) : Nat := a / 8

namespace State

/-- The partition that a pair maps to, in the map in force (R117). -/
def mapped (s : State) (port vlan : Nat) : Option Nat := (List.range 64).find? (fun p => (s.part p).pairs.contains (port, vlan))

/-- A completion goes to a descriptor's source on its pair in its class (R125). One of TENSOR_LOAD always has its body, here
that of a header not read (R244). -/
def sendCompletion (s : State) (p : Nat) (h : DescHdr) (op : Nat) (st : Status) (body : Octets) : State :=
  let body := if op == 0x32 && body.isEmpty then zeros 12 ++ beBytes 4 0xFFFFFFFF else body
  s.offer p h.cls (.descStage (planeOf h.port)) .nobody
    (.frame h.src none 0x88B5 (yuvBytes 2 op (statusCode st) h.tag.toNat h.stream body)) [(h.port.val, h.vlan)] none

/-- An accepted descriptor by number. -/
def desc (s : State) (id : Nat) : Option Desc := s.descs.find? (fun d => d.id == id)

/-- A descriptor changed by `f`. -/
def updDesc (s : State) (id : Nat) (f : Desc → Desc) : State := { s with descs := mapWhen (fun d => d.id == id) f s.descs }

/-- Descriptors of the same pair and stream that a fenced one waits for (R126). -/
def fenceAfter (s : State) (h : DescHdr) : List Nat :=
  (s.descs.filter (fun d => d.hdr.port == h.port && d.hdr.vlan == h.vlan && d.hdr.stream == h.stream)).map Desc.id

/-- Fenced descriptors none of whose earlier ones is left are released (R126). -/
def releaseFences (s : State) : State :=
  (s.descs.filter (fun d => match d.hold with
    | .fence l => l.all (fun k => (s.desc k).isNone)
    | _ => false)).foldl (fun s d => s.hand (.fenceRelease d.id)) s

/-- The partition's waiting STEP_END may proceed: every PEAL_START and PROG_INVOKE accepted before it has completed
(R138 step 1). -/
def stepReady (s : State) (p : Nat) : Bool := !(s.descs.any (fun d => d.part == p && d.beforeStep))

/-- A step boundary is handed on when nothing is left to wait for (R138). -/
def checkStep (s : State) (p : Nat) : State :=
  if (s.part p).stepEnd.isSome && s.stepReady p then s.hand (.stepBoundary (fin64 p)) else s

/-- The order in which a memory operation takes effect: among those of its pair on device-local spaces, or of its remote stream; none
for a node of the local site and for any other descriptor (R133). -/
def memOrder (s : State) (d : Desc) : Option (Nat × Nat × Nat) :=
  let key := fun (m : MemOp) =>
    if m.space != .global then some (0, d.hdr.port.val, d.hdr.vlan)
    else if s.siteRemote (siteOf m.addr) then some (1, d.part, d.hdr.stream)
    else none
  match d.cmd with
  | .memPut _ m _ => key m
  | .memGet _ m => key m
  | .memAtomic _ m _ => key m
  | _ => none

/-- An accepted descriptor has not started: held, or released and not yet come again. -/
def notStarted (s : State) (d : Desc) : Bool := d.hold != .running || s.handed.any (fun h => h.1 == some d.id && (match h.2 with
    | .remoteOperationRx .. => false
    | .localFrameRx .. => false
    | _ => true))

/-- A memory operation waits for an earlier one of its order that has not started (R133). -/
def memBehind (s : State) (id : Nat) : Bool :=
  match s.desc id with
  | none => false
  | some d => (s.memOrder d).isSome && s.descs.any (fun e => decide (e.id < id) && s.notStarted e && s.memOrder e == s.memOrder d)

/-- The first memory operation held behind others of an order comes again (R133). -/
def wakeBehind (s : State) (key : Option (Nat × Nat × Nat)) : State :=
  match if key.isSome then s.descs.find? (fun e => e.hold == .later && s.memOrder e == key) else none with
  | some e => (s.updDesc e.id (fun x => { x with hold := .running })).resume e.id e.cmd
  | none => s

/-- An accepted descriptor completes (R125): it leaves the list, its completion is sent where one is due, and what waited
for it goes on. -/
def complete (s : State) (id : Nat) (st : Status) (body : Octets) : State :=
  match s.desc id with
  | none => s
  | some d =>
    let key := s.memOrder d
    let s : State := { s with descs := s.descs.filter (fun x => x.id != id), waits := s.waits.filter (fun w => w.desc != id) }
    let s := s.wakeBehind key
    let s := if st != .ok || d.hdr.wantCompletion || alwaysCompletes d.opcode
      then s.sendCompletion d.part d.hdr d.opcode st body else s
    (s.releaseFences).checkStep d.part

/-- The reply that a partition's state gives a descriptor (R43). -/
def stateReply (s : State) (p op : Nat) : Option Status :=
  match (s.part p).state with
  | .starting => some .partitionReload
  | .reloading => some .partitionReload
  | .halted => if haltedAnswers op then none else some .notPermitted
  | _ => none

/-- A descriptor is accepted: number, and the state that holds it (R126). -/
def accept (s : State) (p : Nat) (h : DescHdr) (op : Nat) (hold : Hold) (cmd : Instr) : Nat × State :=
  let early := (op == 0x01 || op == 0x31) && hold != .step
  let d : Desc := { id := s.nextDesc, part := p, hdr := { h with units := 0 }, opcode := op, hold := hold, cmd := cmd,
                    beforeStep := early }
  (d.id, { s with descs := s.descs ++ [d], nextDesc := s.nextDesc + 1 })

/-- A partition's accepted descriptors (R126). -/
def accepted (s : State) (p : Nat) : Nat := s.descs.countP (fun d => d.part == p)

/-- The receive stage lets go of a descriptor's frame: the descriptor stage has consumed it (R249). -/
def consume (s : State) (h : DescHdr) : State := if h.units == 0 then s else s.freeRx h.port h.units

/-- Descriptors that one of this header waits for (R126). -/
def waitsFor (s : State) (h : DescHdr) : List Nat := if h.fence then s.fenceAfter h else []

/-- A partition is FREE or SCRUBBING: its frames are dropped as from an unmapped pair (R43). -/
def partGone (s : State) (p : Nat) : Bool := (s.part p).state == .free || (s.part p).state == .scrubbing

/-- The partition of a frame: the one that the map gave when its check completed (R117), or the one that its pair maps to now. -/
def ownerOf (s : State) (port vlan : Nat) (owner : Option Nat) : Option Nat :=
  match owner with
  | some p => if s.partGone p then none else some p
  | none => s.mapped port vlan

/-- A partition has as many descriptors, or TENSOR_LOADs, accepted and not completed as it may have (R126, R245). -/
def isFull (s : State) (p op : Nat) : Bool :=
  decide (4096 ≤ s.accepted p) || (op == 0x32 && decide (16 ≤ s.descs.countP (fun d => d.part == p && d.opcode == 0x32)))

/-- A descriptor from its form to its run, in the order of R127. `bad` is what its own fields break, and `form` what they break
beside what the partition holds of its own, with the completion body; `check` gives the statuses that need the partition's
resources, in order, with a completion body; `run` starts it under its number, and is told what the receive stage still holds of its
frame. A descriptor that a STEP_END or a fence holds is accepted, and comes again here when it is released (R126, R138). -/
def beginHeld (s : State) (h : DescHdr) (op : Nat) (cmd : Instr) (bad : Bool) (check : State → Nat → Option (Status × Octets))
    (run : State → Nat → Nat → Option (Nat × Nat) → State) (form : State → Nat → Option Octets := fun _ _ => none) : State :=
  match s.resuming with
  | some id =>
    match s.desc id with
    | some d =>
      match form s d.part, check s d.part with
      | some body, _ => s.complete id .badDescriptor body
      | none, some (st, body) => s.complete id st body
      | none, none => run s d.part id none
    | none => s
  | none =>
    match s.ownerOf h.port h.vlan h.owner with
    | none => (s.consume h).bump (.rx h.port 3)
    | some p =>
      match if bad then some [] else form s p with
      | some body => (s.consume h).sendCompletion p h op .badDescriptor body
      | none => match s.stateReply p op with
        | some st => (s.consume h).sendCompletion p h op st []
        | none =>
          let held := stepHolds op && (s.part p).stepEnd.isSome
          let after := s.waitsFor h
          if s.isFull p op then
            match check s p with
            | some (st, body) => (s.consume h).sendCompletion p h op st body
            | none => (s.consume h).sendCompletion p h op .quota []
          else if held then ((s.consume h).accept p h op .step cmd).2
          else if !after.isEmpty then ((s.consume h).accept p h op (.fence after) cmd).2
          else match check s p with
            | some (st, body) => (s.consume h).sendCompletion p h op st body
            | none =>
              let a := s.accept p h op .running cmd
              run a.2 p a.1 (if h.units == 0 then none else some (h.port.val, h.units))

/-- The receive stage lets go of what it still holds of a frame. -/
def release (s : State) (rx : Option (Nat × Nat)) : State :=
  match rx with
  | some (n, u) => s.freeRx n u
  | none => s

/-- As beginHeld, for a descriptor that the descriptor stage consumes at once (R249). -/
def begin (s : State) (h : DescHdr) (op : Nat) (cmd : Instr) (bad : Bool) (check : State → Nat → Option (Status × Octets))
    (run : State → Nat → Nat → State) (form : State → Nat → Option Octets := fun _ _ => none) : State :=
  s.beginHeld h op cmd bad check (fun s p id rx => run (s.release rx) p id) form

/-! ### Windows (R45 to R50) -/

/-- A partition holds a cluster that is not retired (R28, R40). -/
def holdsCluster (s : State) (p c : Nat) : Bool :=
  ((s.conf.partOf p).map (fun r => r.hasCluster c)).getD false && !(s.cluster c).retired

/-- The windows of a partition in force (R50). -/
def windows (s : State) (p : Nat) : List Window := s.conf.windows.filter (fun w => w.part == p)

/-- One single window covers the whole access with every right it needs; an access of zero octets passes (R46). -/
def access (s : State) (p : Nat) (sp : Space) (cluster addr len : Nat) (x : Rights) : Bool :=
  len == 0 || (s.windows p).any (fun w => w.kind == spaceKind sp && (sp != .scratch || w.cluster == cluster) &&
    decide (w.base ≤ addr) && decide (addr + len ≤ w.limit) && (!x.r || w.r) && (!x.w || w.w) && (!x.a || w.a) && (!x.i || w.i))

/-- New windows wait for old accesses to end, so accesses are held (R50). -/
def windowsWait (s : State) (p : Nat) : Bool := (s.part p).newWindows.isSome

/-- Mirrored windows of a partition: BASALT windows of indices 12 to 15, ascending (R401). -/
def mirrored (s : State) (p : Nat) : List Window :=
  ([12, 13, 14, 15]).filterMap (fun k => (s.windows p).find? (fun w => w.index == k && w.kind == 3))

/-- Pages of a partition's mirrored windows (R401). -/
def pageCount (s : State) (p : Nat) : Nat := ((s.mirrored p).map pagesOf).sum

/-- Page numbers that a run of addresses touches, with the pages of earlier windows counted before (R401). -/
def pagesTouched (ws : List Window) (before addr len : Nat) : List Nat :=
  match ws with
  | [] => []
  | w :: r =>
    let lo := max addr w.base
    let hi := min (addr + len) w.limit
    (if lo < hi then (List.range ((hi - 1 - w.base) / 65536 + 1 - (lo - w.base) / 65536)).map
      (fun i => before + (lo - w.base) / 65536 + i) else []) ++ pagesTouched r (before + pagesOf w) addr len

/-- Every mirror's dirty bits after a write of BASALT addresses (R401). -/
def dirtyPages (s : State) (addr len : Nat) : State :=
  { s with mirrors := s.mirrors.map (fun m =>
      { m with dirty := (m.dirty ++ pagesTouched (s.mirrored m.part) 0 addr len).eraseDups }) }

/-- A write into mirrored windows waits: mirroring has begun and not ended, or a restore is on its way (R405, R410). -/
def writesWait (s : State) (addr len : Nat) : Bool :=
  s.mirrors.any (fun m => (m.job.any (fun j => j.stage != .probe) || (s.part m.part).mirror == .restoring || (s.part m.part).mirror == .staged) &&
    !(pagesTouched (s.mirrored m.part) 0 addr len).isEmpty)

/-! ### Device-local memories (R86, R132, R196, R198) -/

/-- Reservations on the granules that a write touches are lost: scratch and Basalt share one address key per space
(R198). -/
def breakReserve (s : State) (key len : Nat) : State :=
  let hit := fun (c : Core) => match c.reserve with
    | some (a, _) => decide (granuleOf key ≤ a) && decide (a ≤ granuleOf (key + len - 1))
    | none => false
  if s.cores.toList.any hit then { s with cores := s.cores.map (fun c => if hit c then { c with reserve := none } else c) } else s

/-- One address key over the device-local spaces, for reservations: scratch of cluster c, then Basalt. -/
def localKey (sp : Space) (cluster addr : Nat) : Nat := if sp == .scratch then cluster * 2 ^ 23 + addr else 2 ^ 40 + addr

/-- Octets of a device-local space. -/
def readLocal (s : State) (sp : Space) (cluster addr len : Nat) : Octets :=
  if sp == .scratch then memRead 0 (s.cluster cluster).scratch addr len else memRead 0 s.basalt addr len

/-- Octets placed in a device-local space: dirty bits set and reservations lost (R198, R401). -/
def placeLocal (s : State) (sp : Space) (cluster addr : Nat) (x : Octets) : State :=
  let s := s.breakReserve (localKey sp cluster addr) x.length
  if sp == .scratch then s.updCluster cluster (fun c => { c with scratch := memWrite 0 c.scratch addr x })
  else ({ s with basalt := memWrite 0 s.basalt addr x }).dirtyPages addr x.length

/-- The rule of R235 is broken for the matrix commands that `hit` picks: their C is undefined, at once where it has been
written (log entry 3). -/
def markRaced (s : State) (hit : MatWatch → Bool) : State :=
  let ws := (s.cores.toList.flatMap Core.matOpen).filter (fun w => !w.raced && hit w)
  if ws.isEmpty then s
  else
    let s := { s with cores := s.cores.map (fun c => { c with matOpen := mapWhen hit (fun w => { w with raced := true }) c.matOpen }) }
    (ws.filter MatWatch.done).foldl (fun s w =>
      let f := s.freeOctets 16384
      f.2.placeLocal .scratch (w.engine / 4) w.c f.1) s

/-- A range is written, by engine `e` or by anything else, while a matrix command that reads it has not been waited for
(R235). -/
def noteWrite (s : State) (e : Option Nat) (sp : Space) (cluster addr len : Nat) : State :=
  s.markRaced (fun w => e != some w.engine && w.reads.any (fun r =>
    r.1 == sp && (sp != .scratch || r.2.1 == cluster) && rangesMeet (r.2.2.1, r.2.2.2) (addr, len)))

/-- A range is read, by engine `e` or by anything else, while a matrix command that writes it has not been waited for
(R235). -/
def noteRead (s : State) (e : Option Nat) (sp : Space) (cluster addr len : Nat) : State :=
  s.markRaced (fun w => e != some w.engine && sp == .scratch && w.engine / 4 == cluster && rangesMeet (w.c, 16384) (addr, len))

/-- Octets written to a device-local space by anything but a matrix engine. -/
def writeLocal (s : State) (sp : Space) (cluster addr : Nat) (x : Octets) : State :=
  (s.noteWrite none sp cluster addr x.length).placeLocal sp cluster addr x

/-- An atomic on an aligned little-endian word of a device-local space: the old value, and the state after it (R134). -/
def atomicLocal (s : State) (sp : Space) (cluster addr width : Nat) (op : AtomicOp) (a b : Nat) : Nat × State :=
  let old := leNat (s.readLocal sp cluster addr width)
  (old, (s.noteRead none sp cluster addr width).writeLocal sp cluster addr (leBytes width (atomicNew op width old a b)))

end State

/-- FENCE_RELEASE (R126): a fenced descriptor whose earlier ones have all completed starts. -/
def execFenceRelease (desc : Nat) (s : State) : Host.Outcome State Fault Refusal :=
  match s.desc desc with
  | some d =>
    match d.hold with
    | .fence l =>
      .next (if l.all (fun k => (s.desc k).isNone) then
        (s.updDesc desc (fun x => { x with hold := .running })).resume desc d.cmd else s)
    | _ => .next s
  | none => .next s

end Sys2Proof.Machine
end

