-- ==== Sys2Proof/Machine/Ports.lean ====
section
/-! DEFINITION. Local ports: received frames, credit frames, link up and down, and PTP copies (R114 to R126, R261, R373). -/

namespace Sys2Proof.Machine

/-- Octets of a credit frame (R118): untagged, to the broadcast address, padded to 64 octets. The rule gives no
destination address (log entry 11). -/
def creditFrame (port granted : Nat) : Octets :=
  ethBytes (BitVec.allOnes 48) (portAddress port) none 0x88B5 ([0x01, 0x03] ++ zeros 2 ++ beBytes 4 granted ++ zeros 8)

/-- A completion frame whose header breaks R123: body past the frame, reserved status, non-zero reserved field. -/
def completionBad (y : Octets) : Bool :=
  yuvPastEnd y || (statusOfCode (octetAt 3 y)).isNone || decide (2 ^ 20 ≤ beAt 8 4 y) || !(zerosAt 14 2 y)

/-- The completion header of a Yuviette frame or item (R123). -/
def compHdr (y : Octets) : CompHdr :=
  { opcode := octetAt 2 y, status := (statusOfCode (octetAt 3 y)).getD .ok, tag := BitVec.ofNat 32 (beAt 4 4 y),
    stream := beAt 8 4 y % 2 ^ 20 }

namespace State

/-- A credit frame leaves: it reports the cumulative count granted (R118, R119). -/
def sendCredit (s : State) (n : Nat) : State :=
  if (s.port n).linkUp then
    (s.emit (.frame n (creditFrame n (s.port n).granted))).updPort n (fun q => { q with reported := some q.granted })
  else s

/-- Pairs of a partition on ports with PTP on, other than the pair of arrival (R373). -/
def ptpPairs (s : State) (p port vlan : Nat) : List (Nat × Nat) :=
  (s.part p).pairs.filter (fun x => x != (port, vlan) && ((s.conf.portOf x.1).map PortRec.ptp).getD false)

/-- A PTP message of a partition: dropped and counted, or copied to its other PTP pairs, one item for each die
(R34, R373). -/
def ptpRx (s : State) (p port vlan cls : Nat) (dst : BitVec 48) (body : Octets) (units t : Nat) : State :=
  if !((s.conf.portOf port).map PortRec.ptp).getD false then (s.freeRx port units).bump (.outPort p port 4)
  else
    let len := beAt 2 2 body
    if octetAt 1 body % 16 != 2 || len < 34 || body.length < len then (s.freeRx port units).bump (.outPort p port 5)
    else
      let outs := s.ptpPairs p port vlan
      match (outs.map (fun o => dieOf o.1)).eraseDups with
      | [] => s.freeRx port units
      | dies => dies.foldl (fun s d => s.offer p cls (.localIn port) (.ptp port t) (.frame dst none 0x88F7 body)
            (outs.filter (fun o => dieOf o.1 == d)) (some (port, units))) s

/-- A received frame of a mapped partition with the Yuviette EtherType (R115 rows 8 and 9, R123). -/
def yuvRx (s : State) (p : Nat) (port : LocalPort) (vlan : Nat) (cls : Class) (src : BitVec 48) (y : Octets) (units : Nat) : State :=
  if octetAt 0 y != 1 || !([1, 2].contains (octetAt 1 y)) then (s.freeRx port units).bump (.rx port 5)
  else if octetAt 1 y == 2 then
    let c := compHdr y
    if completionBad y || !(s.nodeOps.any (fun o => o.part == p && o.tag == c.tag)) then (s.freeRx port units).bump (.rx port 5)
    else (s.freeRx port units).hand (.nodeCompletionRx port vlan { c with owner := some p } (yuvBody y))
  else
    let h := { descHdr port vlan cls src y with units := units, owner := some p }
    match parseDescriptor h y with
    | some i => s.hand i
    | none => (s.freeRx port units).sendCompletion p h (octetAt 2 y) .badDescriptor []

/-- A checked frame of partition p goes on from the receive stage: PTP message or Yuviette frame (R115 rows 6, 8 and 9). One whose
partition has gone meanwhile is dropped as unmapped (R43). -/
def takeFrame (s : State) (port : LocalPort) (p : Nat) (x : Octets) (t : Nat) : State :=
  let f := ethFrame x
  let units := unitsOf x.length
  let n : Nat := port
  let vlan := (f.tag.map Prod.snd).getD 0
  let cls : Class := Fin.ofNat 8 ((f.tag.map Prod.fst).getD 0)
  if s.partGone p then (s.freeRx n units).bump (.rx n 3)
  else if f.etype == 0x88F7 then s.ptpRx p n vlan cls f.dst f.body units t
  else s.yuvRx p port vlan cls f.src f.body units

/-- A frame fully received on a local port (R115). A credit frame counts as one whatever its version and its reserved octets hold: R115
and R118 name no test of them (log entry 11). A frame that passes waits in the receive stage while one before it has not left it
(R121). -/
def frameRx (s : State) (port : LocalPort) (x : Octets) : State :=
  let units := unitsOf x.length
  if !(s.port port).linkUp then s
  else
    let f := ethFrame x
    let n : Nat := port
    let hold := fun (s : State) => s.updPort n (fun q => { q with staged := q.staged + units })
    let drop := fun (s : State) (i : Nat) => ((hold s).grantBack n units).bump (.rx n i)
    if x.length < 64 || !(fcsOk x) then drop s 0
    else if x.length > 9216 then drop s 1
    else if f.tag.isNone && f.etype == 0x88B5 && octetAt 1 f.body == 3 then s.hand (.creditFrameRx port (beAt 4 4 f.body))
    else
      let vlan := (f.tag.map Prod.snd).getD 0
      let p := s.mapped n vlan
      let s := s.snareLocal n true (p.getD 0) x
      if f.tag.isNone || vlan == 0 || vlan == 4095 || f.etype == 0x8808 then drop s 2
      else match p with
        | none => drop s 3
        | some p =>
          if f.etype != 0x88F7 && f.etype != 0x88B5 then drop s 4
          else if (s.port n).inRx then (hold s).updPort n (fun q => { q with rxq := q.rxq ++ [(p, s.stamp n true, x)] })
          else ((hold s).updPort n (fun q => { q with inRx := true })).takeFrame port p x (s.stamp n true)

/-- A received cumulative count: taken, or ignored when the available credit would pass 2^31 (R118, R120). -/
def creditRx (s : State) (n c : Nat) : State :=
  if !(s.port n).linkUp then s
  else if serialDiff 32 c (s.port n).consumed > 2 ^ 31 then s.raise 0x0502 none (oct 1 ++ oct n)
  else (s.updPort n (fun q => { q with peerGranted := c % 2 ^ 32 })).hand (.outputSelect (fin64 n))

/-- Every entry queued for a local port is dropped and counted (R261). -/
def flushPort (s : State) (n : Nat) : State :=
  (s.sw.items.filter (fun i => i.buf.isSome && i.outs.any (fun o => o.1 == n))).foldl
    (fun s i => (s.bump (.outPort i.part n 2)).dropEntry i.id n) s

end State

/-! ### Meanings -/

/-- LOCAL_FRAME_RX (R115): a frame from the line, or one that has waited in the receive stage behind others (R121). -/
def execLocalFrameRx (port : LocalPort) (frame : Octets) (s : State) : Host.Outcome State Fault Refusal :=
  match s.resuming with
  | none => .next (s.frameRx port frame)
  | some p => .next (s.takeFrame port p frame (s.port port).rxAt)

/-- CREDIT_FRAME_RX (R118, R120). -/
def execCreditFrameRx (port : LocalPort) (cumulative : Nat) (s : State) : Host.Outcome State Fault Refusal :=
  .next (s.creditRx port cumulative)

/-- CREDIT_FRAME_TX (R119). -/
def execCreditFrameTx (port : LocalPort) (s : State) : Host.Outcome State Fault Refusal := .next (s.sendCredit port)

/-- CREDIT_TIMEOUT (R120): an event on a port whose link is up; the last count stays. -/
def execCreditTimeout (port : LocalPort) (s : State) : Host.Outcome State Fault Refusal :=
  .next (if (s.port port).linkUp then s.raise 0x0502 none (State.oct 2 ++ State.oct port) else s)

/-- LOCAL_LINK_UP (R119, R122): both counts from zero, and the first credit frame grants the receive grant. -/
def execLocalLinkUp (port : LocalPort) (s : State) : Host.Outcome State Fault Refusal :=
  if s.portUp port && !(s.port port).linkUp then
    let g := ((s.conf.portOf port).map PortRec.grant).getD 0
    .next ((s.updPort port (fun q =>
      { q with linkUp := true, granted := g, reported := none, peerGranted := 0, consumed := 0 })).sendCredit port)
  else .next s

/-- LOCAL_LINK_DOWN (R122, R261): the counts return to zero, and every entry queued for the port is dropped. Frames already checked go
on; their units belong to no count after it (log entry 11). -/
def execLocalLinkDown (port : LocalPort) (s : State) : Host.Outcome State Fault Refusal :=
  let s := s.updPort port (fun q =>
    { q with linkUp := false, granted := 0, reported := none, staged := 0, stale := q.stale + q.staged, peerGranted := 0, consumed := 0 })
  .next (s.flushPort port)

end Sys2Proof.Machine
end

