-- ==== Sys2Proof/Machine/Streams.lean ====
section
/-! DEFINITION. Stream contexts, items offered to streams, node operations and accesses in pieces, and how an operation's
answer reaches what it was made for (R130, R300 to R304, R311, R321). -/

namespace Sys2Proof.Machine

/-- The context of an originated stream. -/
def origKey (stream : Nat) : CtxKey := ⟨false, stream, 0⟩

/-- The context of an accepted stream (R300). -/
def accKey (stream site : Nat) : CtxKey := ⟨true, stream, site⟩

/-- The context that an item travels on (R307). -/
def loadKey : Load → Option CtxKey
  | .stream kind stream site _ => some (if kind == 3 then accKey stream site else origKey stream)
  | _ => none

/-- A context of an originated stream in IDLE (R322). -/
def Ctx.fresh (p stream : Nat) : Ctx :=
  { key := origKey stream, part := p, state := .idle, site := 0, line := 0, rxLine := 0, incarnation := 0, cls := 0, openTime := 0,
    sendNext := 0, sendBase := 0, peerWindow := 256, srtt := none, rttvar := 0, rto := 50000000, held := [],
    sending := none, ops := [], arrivals := 0, firstArrival := none, lastArrival := 0, recordDue := none,
    cumulative := 0, advertised := 256, stored := [], item := none, waitBuffer := none, unanswered := 0 }

/-- The plane whose descriptor stage writes the completions of operations that came from the line: the spec names none (log entry 11). -/
def remotePlane : Nat := 0

/-- Buffers on which a held segment has its holds (R311). -/
def heldBufs (h : HeldSeg) : List (Nat × Nat × Nat) :=
  match h.body with
  | .data ps => ps.filterMap Piece.buf
  | _ => []

namespace State

/-! ### Contexts -/

/-- A context by key. -/
def ctx (s : State) (k : CtxKey) : Option Ctx := s.ctxs.find? (fun c => c.key == k)

/-- A context changed by `f`. -/
def updCtx (s : State) (k : CtxKey) (f : Ctx → Ctx) : State := { s with ctxs := mapWhen (fun c => c.key == k) f s.ctxs }

/-- A context set. -/
def putCtx (s : State) (c : Ctx) : State :=
  if (s.ctx c.key).isSome then s.updCtx c.key (fun _ => c) else { s with ctxs := s.ctxs ++ [c] }

/-- A context removed. -/
def dropCtx (s : State) (k : CtxKey) : State :=
  { s with ctxs := s.ctxs.filter (fun c => c.key != k), caches := s.caches.filter (fun x => x.2.2 != k) }

/-- The partition that holds a stream ID (R40, R308). -/
def streamPart (s : State) (stream : Nat) : Option Nat := (s.conf.parts.find? (fun p => p.hasStream stream)).map (·.part)

/-- Key slots of usage 0x01 of a partition, ascending (R303). -/
def sealSlots (s : State) (p : Nat) : List Nat :=
  (List.range 4096).filter (fun n => s.conf.blobs.any (fun b => b.slot == n && b.part == p && b.usage == 1))

/-- The slot that seals a stream of a partition (R303). -/
def slotFor (s : State) (p stream : Nat) : Option Nat :=
  let l := s.sealSlots p
  if l.isEmpty then none else l[stream % l.length]?

/-- A partition holds a stream ID for use toward a remote site: it has a slot of usage 0x01 (R303). -/
def holdsStream (s : State) (p stream : Nat) : Bool :=
  ((s.conf.partOf p).map (fun r => r.hasStream stream)).getD false && !(s.sealSlots p).isEmpty

/-- A stream leads to a site: a stream in IDLE leads wherever its first item goes (R301). -/
def leadsTo (s : State) (stream site : Nat) : Bool :=
  match s.ctx (origKey stream) with
  | some c => c.state == .idle || c.site == site
  | none => true

/-- A context is used on a line die: it becomes the latest entry of the partition's share of that die's cache, and the
least recently used entry beyond the share leaves (R54, R304). -/
def touchCache (s : State) (die p : Nat) (k : CtxKey) : State :=
  let share := (((s.conf.partOf p).map PartRec.cache).getD []).getD die 0
  let own := (s.caches.filter (fun x => x.1 == die && x.2.1 == p && x.2.2 != k)).take (share - 1)
  let rest := s.caches.filter (fun x => !(x.1 == die && x.2.1 == p))
  { s with caches := (if share == 0 then [] else (die, p, k) :: own) ++ rest }

/-! ### Tags (R130, R321) -/

/-- A tag of the Doldex's own choosing that no operation outstanding uses: a free value, then the next unused (log entry
3). -/
def freshTag (s : State) : Word32 × State :=
  let f := s.free
  let used := s.nodeOps.map NodeOp.tag ++ s.ctxs.flatMap (fun c => c.ops.map StreamReq.tag)
  let t0 : Word32 := f.1.truncate 32
  let t := ((List.range (used.length + 1)).map (fun i => t0 + BitVec.ofNat 32 i)).find? (fun t => !used.contains t)
  (t.getD t0, f.2)

/-! ### Items for streams -/

/-- An item offered to an originated stream toward a site, or to an accepted one: the status it ends with at once, or the
state with the item offered on the line port that the flow hash picks now; where the set has become empty it stays on the stream's
(R253, R301, R304, R324). -/
def offerStream (s : State) (p kind stream site : Nat) (cls : Class) (w : Writer) (org : Origin) (body : Octets)
    (rx : Option (Nat × Nat)) : Except Status State :=
  let k := if kind == 3 then accKey stream site else origKey stream
  let c := s.ctx k
  match c.map Ctx.state with
  | some (.failed st) => .error st
  | some .open =>
    let m := (pickFlow p stream (s.lineCands p ((c.map Ctx.site).getD 0))).getD ((c.map Ctx.line).getD 0)
    .ok (s.offer p ((c.map Ctx.cls).getD 0) w org (.stream kind stream site body) [(64 + m, 0)] rx)
  | _ =>
    if kind == 3 then .error .streamFailed
    else match pickFlow p stream (s.lineCands p site) with
      | none => .error .streamFailed
      | some m =>
        let s := if c.isSome then s else s.putCtx (Ctx.fresh p stream)
        .ok (s.offer p cls w org (.stream kind stream site body) [(64 + m, 0)] rx)

/-! ### Answers (R130, R132, R134, R321) -/

/-- A mirror operation is answered; with the last one the job goes on (R405, R406, R408, R410). -/
def mirrorAnswer (s : State) (p k : Nat) (st : Status) (body : Octets) : State :=
  match s.mirrors.find? (fun m => m.part == p) with
  | none => s
  | some m =>
    match m.job with
    | none => s
    | some j =>
      if !j.left.contains k then s
      else
        let left := j.left.filter (· != k)
        let s := if st == .timeout then s else { s with partnerAnswer := some s.now }
        let j := { j with left := left, reads := setEntry k body j.reads, failed := j.failed || st != .ok }
        let s := { s with mirrors := mapWhen (fun x => x.part == p) (fun x => { x with job := some j }) s.mirrors }
        if left.isEmpty then
          match j.stage with
          | .probe => s.hand (if (s.part p).mirror == .lagging then .mirrorLagProbe (fin64 p) else .heldBackProbe (fin64 p))
          | .restoreCommit | .restoreRecord | .restorePages => s.hand (.restoreDone (fin64 p))
          | _ => s.hand (.mirrorCommit (fin64 p))
        else s

/-- The command that the end of an access in pieces brings about (R166, R160, R215, R244). -/
def xferEnd : XferUse → Instr
  | .contribution p g n c r e => .contributionReadDone (fin64 p) g n c e r
  | .result p g n c r => .resultWriteDone (fin64 p) g n c r
  | .dma c => .dmaDone (fin16 c)
  | .tensor d => .tensorLoadDone (Fin.ofNat 2 d)

/-- A piece of an access is answered; with the last one the access ends (R170, R215). -/
def xferAnswer (s : State) (id k : Nat) (st : Status) (body : Octets) : State :=
  match s.xfers.find? (fun x => x.id == id) with
  | none => s
  | some x =>
    if !x.left.contains k then s
    else
      let left := x.left.filter (· != k)
      let y := { x with left := left, data := if x.read && st == .ok then patch (8192 * k) body x.data else x.data,
                        status := if x.status == .ok then st else x.status }
      let s := { s with xfers := mapWhen (fun z => z.id == id) (fun _ => y) s.xfers }
      if left.isEmpty then s.hand (xferEnd y.use) else s

/-- A remote operation that ran here is answered: its completion returns on the reverse direction of its stream when one is
due, and the context counts it as answered (R125, R321, R322). -/
def remoteAnswer (s : State) (id : Nat) (st : Status) (body : Octets) : State :=
  match s.remoteOps.find? (fun r => r.id == id) with
  | none => s
  | some r =>
    let s : State := { s with remoteOps := s.remoteOps.filter (fun x => x.id != id) }
    let s := match r.buf with
      | some b => s.decRef b
      | none => s
    match s.ctx r.ctx with
    | none => s
    | some c =>
      if c.incarnation != r.incarnation then s
      else
        let s := s.updCtx r.ctx (fun y => { y with unanswered := y.unanswered - 1 })
        if c.state == .open then
          if st != .ok || r.wantCompletion || alwaysCompletes r.opcode then
            match s.offerStream r.part 3 r.ctx.stream r.ctx.site (Fin.ofNat 8 c.cls) (.descStage remotePlane) .nobody
                (yuvBytes 2 r.opcode (statusCode st) r.tag r.stream (if st == .ok then body else [])) none with
            | .ok s => s
            | .error _ => s
          else s
        else if (s.ctx r.ctx).any (fun y => y.unanswered == 0) then s.hand (.acceptedContextFree r.ctx) else s

/-- The answer of an operation reaches what it was made for. -/
def answerOp (s : State) (o : Origin) (st : Status) (body : Octets) : State :=
  match o with
  | .desc id => s.complete id st (if st == .ok then body else [])
  | .xfer id k => s.xferAnswer id k st body
  | .remote id => s.remoteAnswer id st body
  | .mirror p k => s.mirrorAnswer p k st body
  | .peal _ _ _ | .ptp _ _ | .nobody => s

/-- The body of an answer: exactly the octets that an OK answer carries, those that are missing free (log entry 3). -/
def answerBody (s : State) (n : Nat) (st : Status) (body : Octets) : Octets × State :=
  if st != .ok then ([], s)
  else
    let f := s.freeOctets (n - body.length)
    (body.take n ++ f.1, f.2)

/-! ### Node operations (R130) -/

/-- A memory operation sent to a node of the local site as a descriptor frame with the Doldex's own tag, on the pair that the
flow hash picks; with no pair it ends at once with TIMEOUT (R130, R253). -/
def sendNode (s : State) (p : Nat) (cls : Class) (w : Writer) (org : Origin) (opcode node bodyLen : Nat) (body : Octets)
    (rx : Option (Nat × Nat)) : State :=
  match pickFlow p node (s.part p).candPairs with
  | none =>
    (s.release rx).answerOp org .timeout []
  | some o =>
    let t := s.freshTag
    let s := { t.2 with nodeOps := t.2.nodeOps ++ [(⟨t.1, p, opcode, bodyLen, org⟩ : NodeOp)] }
    s.offer p cls w org (.frame (nodeAddress node) none 0x88B5 (yuvBytes 1 opcode 1 t.1.toNat 0 body)) [o] rx

/-- A memory operation sent to a remote site on a stream (R129, R301, R321). -/
def sendRemote (s : State) (p stream site : Nat) (cls : Class) (w : Writer) (org : Origin) (opcode bodyLen : Nat) (body : Octets)
    (rx : Option (Nat × Nat)) : State :=
  let t := s.freshTag
  match t.2.offerStream p 2 stream site cls w org (yuvBytes 1 opcode 1 t.1.toNat stream body) rx with
  | .error st =>
    (s.release rx).answerOp org st []
  | .ok s => s.updCtx (origKey stream) (fun c => { c with ops := c.ops ++ [⟨t.1, opcode, bodyLen, org⟩] })

/-- A memory operation on a global address: to a remote site on its stream, or to a node (R129, R130). -/
def sendGlobal (s : State) (p stream : Nat) (cls : Class) (w : Writer) (org : Origin) (opcode addr bodyLen : Nat) (body : Octets)
    (rx : Option (Nat × Nat)) : State :=
  if s.siteRemote (siteOf addr) then s.sendRemote p stream (siteOf addr) cls w org opcode bodyLen body rx
  else s.sendNode p cls w org opcode (nodeOf addr) bodyLen body rx

/-! ### Accesses in pieces (R170, R215) -/

/-- Pieces of at most 8,192 octets of a run: address and length (R170, R215). -/
def piecesOf (addr len : Nat) : List (Nat × Nat) :=
  (List.range (ceilDiv len 8192)).map (fun k => (addr + 8192 * k, min 8192 (len - 8192 * k)))

/-- A GLOBAL read of one run in pieces (R170, R215). -/
def startRead (s : State) (p stream : Nat) (cls : Class) (w : Writer) (use : XferUse) (addr len : Nat) : State :=
  let ps := piecesOf addr len
  let id := s.nextXfer
  let x : Xfer := { id := id, part := p, use := use, read := true, length := len, writer := w, left := List.range ps.length,
                    data := zeros len, status := .ok }
  let s := { s with xfers := s.xfers ++ [x], nextXfer := id + 1 }
  ps.zipIdx.foldl (fun s q =>
    s.sendGlobal p stream cls w (.xfer id q.2) 0x11 q.1.1 q.1.2 (memBody .global 0 0 0 q.1.2 q.1.1 0 0 []) none) s

/-- A GLOBAL write of runs, each in pieces, as one access (R170, R215). -/
def startWrite (s : State) (p stream : Nat) (cls : Class) (w : Writer) (use : XferUse) (runs : List (Nat × Octets)) : State :=
  let ps := runs.flatMap (fun r => (piecesOf r.1 r.2.length).map (fun q => (q.1, slice (q.1 - r.1) q.2 r.2)))
  let id := s.nextXfer
  let x : Xfer := { id := id, part := p, use := use, read := false, length := (ps.map (fun q => q.2.length)).sum, writer := w,
                    left := List.range ps.length, data := [], status := .ok }
  let s := { s with xfers := s.xfers ++ [x], nextXfer := id + 1 }
  ps.zipIdx.foldl (fun s q =>
    s.sendGlobal p stream cls w (.xfer id q.2) 0x10 q.1.1 0 (memBody .global 0 0 0 q.1.2.length q.1.1 0 0 q.1.2) none) s

/-- An access that has ended leaves the list, with its octets and status. -/
def takeXfer (s : State) (use : XferUse) : Option (Xfer × State) :=
  (s.xfers.find? (fun x => x.use == use && x.left.isEmpty)).map (fun x =>
    (x, { s with xfers := s.xfers.filter (fun y => y.id != x.id) }))

end State

/-! ### Meanings -/

/-- NODE_COMPLETION_RX (R123, R130): the node operation of the pair's partition with that tag is answered. -/
def execNodeCompletionRx (port : LocalPort) (vlan : Nat) (c : CompHdr) (body : Octets) (s : State) : Host.Outcome State Fault Refusal :=
  match (s.ownerOf port vlan c.owner).bind (fun p => s.nodeOps.find? (fun o => o.part == p && o.tag == c.tag)) with
  | none => .next (s.bump (.rx port 5))
  | some o =>
    let s := { s with nodeOps := s.nodeOps.filter (fun x => x.tag != c.tag) }
    let b := s.answerBody o.bodyLen c.status body
    .next (b.2.answerOp o.origin c.status b.1)

/-- NODE_OP_TIMEOUT (R130): TIMEOUT for the operation of that tag. -/
def execNodeOpTimeout (tag : Word32) (s : State) : Host.Outcome State Fault Refusal :=
  match s.nodeOps.find? (fun o => o.tag == tag) with
  | none => .next s
  | some o => .next (({ s with nodeOps := s.nodeOps.filter (fun x => x.tag != tag) }).answerOp o.origin .timeout [])

/-- STREAM_COMPLETION_RX (R321): the operation outstanding on the stream with that tag is answered; an unknown tag is counted
in XPORT_BAD_ITEM. -/
def execStreamCompletionRx (p : PartId) (c : CompHdr) (body : Octets) (s : State) : Host.Outcome State Fault Refusal :=
  match (s.ctxs.find? (fun x => x.part == p.val && !x.key.accepted && x.ops.any (fun o => o.tag == c.tag))) with
  | none => .next (s.bumpPart p 6)
  | some x =>
    match x.ops.find? (fun o => o.tag == c.tag) with
    | none => .next (s.bumpPart p 6)
    | some o =>
      let s := s.updCtx x.key (fun y => { y with ops := y.ops.filter (fun z => z.tag != c.tag) })
      let b := s.answerBody o.bodyLen c.status body
      .next (b.2.answerOp o.origin c.status b.1)

end Sys2Proof.Machine
end

