-- ==== Sys2Proof/Machine/MemOps.lean ====
section
/-! DEFINITION. Memory operations and sync objects (R129 to R137, R46 to R50), and operations that arrive from the line
(R48, R130, R321). -/

namespace Sys2Proof.Machine

/-- The stream ID that a header may carry with an address: reserved but for a remote site (R131). -/
def memFormBad (s : State) (h : DescHdr) (m : MemOp) : Bool :=
  match m.space with
  | .global => decide (h.stream ≠ 0) && !(s.siteRemote (siteOf m.addr))
  | .scratch => decide (h.stream ≠ 0) || decide (16 ≤ m.cluster)
  | .basalt => decide (h.stream ≠ 0)
  | .coreData => true

/-- The completion body of SO_OP (R135). -/
def syncBody (v : Nat) : Octets := beBytes 4 v ++ zeros 4

namespace State

/-! ### Memory operations -/

/-- The statuses that a memory operation's resources give, in order: a cluster or stream not held, then the window
(R46, R64, R129). While new windows wait, the window test is put off (R50). -/
def memCheck (s : State) (p stream : Nat) (m : MemOp) (x : Rights) : Option (Status × Octets) :=
  let remote := m.space == .global && s.siteRemote (siteOf m.addr)
  if m.space == .scratch && !(s.holdsCluster p m.cluster) then some (.notPermitted, [])
  else if remote && !(s.holdsStream p stream && s.leadsTo stream (siteOf m.addr)) then some (.notPermitted, [])
  else if s.windowsWait p then none
  else if s.access p m.space m.cluster m.addr m.length x then none
  else some (.segmentFault, [])

/-- An access is held: for new windows (R50), or, for a write into mirrored windows, for the mirror (R405). -/
def memHeld (s : State) (p : Nat) (m : MemOp) (writes : Bool) : Bool :=
  s.windowsWait p || (writes && m.space == .basalt && s.writesWait m.addr m.length)

/-- The octets of a put are written to a device-local space (R132). -/
def putLocal (s : State) (m : MemOp) (data : Octets) : State := s.writeLocal m.space m.cluster m.addr data

/-- A descriptor's memory operation, held or run: held too behind an earlier one of its order; on a global address it is sent on, and
in a device-local space `act` gives its answer (R129, R132, R133). -/
def runMem (s : State) (p id : Nat) (h : DescHdr) (m : MemOp) (op bodyLen : Nat) (body : Octets) (rx : Option (Nat × Nat))
    (act : State → Octets × State) : State :=
  if s.memHeld p m (op != 0x11) || s.memBehind id then (s.release rx).updDesc id (fun d => { d with hold := .later })
  else if m.space == .global then
    (s.sendGlobal p h.stream h.cls (.localIn h.port) (.desc id) op m.addr bodyLen body rx).wakeBehind ((s.desc id).bind s.memOrder)
  else
    let r := act (s.release rx)
    r.2.complete id .ok r.1

/-! ### Sync objects (R135 to R137) -/

/-- Value of a sync object. -/
def syncValue (s : State) (id : Nat) : Nat := lookupD id 0 s.syncs

/-- A sync object's value set. -/
def setSync (s : State) (id v : Nat) : State := { s with syncs := setSparse id v 0 s.syncs }

/-- Pending waits on a sync object whose target its value meets complete, in order of arrival (R136, R137). -/
def meetWaits (s : State) (id : Nat) : State :=
  let v := s.syncValue id
  ((s.waits.filter (fun w => w.sync == id && decide (w.target ≤ v))).map SyncWait.desc).foldl
    (fun s d => s.complete d .ok (syncBody v)) s

/-- An ADD: refused where the result would pass 2^32 − 1, else applied with the waits it meets (R136, R137). -/
def syncAdd (s : State) (id amount : Nat) : Bool × State :=
  if s.syncValue id + amount > 0xFFFFFFFF then (false, s)
  else (true, (s.setSync id (s.syncValue id + amount)).meetWaits id)

/-- A partition holds a sync object (R64). -/
def syncCheck (s : State) (p id : Nat) : Option (Status × Octets) :=
  if ((s.conf.partOf p).map (fun r => r.hasSync id)).getD false then none else some (.notPermitted, [])

end State

/-! ### Meanings -/

/-- MEM_PUT (R131, R132). -/
def execMemPut (h : DescHdr) (m : MemOp) (data : Octets) (s : State) : Host.Outcome State Fault Refusal :=
  .next (s.beginHeld h 0x10 (.memPut h m data)
    (memFormBad s h m || decide (m.length = 0) || decide (8192 < m.length) || decide (data.length ≠ m.length))
    (fun s p => s.memCheck p h.stream m .write)
    (fun s p id rx => s.runMem p id h m 0x10 0 (memBody m.space m.cluster 0 0 m.length m.addr 0 0 data) rx
      (fun s => ([], s.putLocal m data))))

/-- MEM_GET (R131, R132). -/
def execMemGet (h : DescHdr) (m : MemOp) (s : State) : Host.Outcome State Fault Refusal :=
  .next (s.beginHeld h 0x11 (.memGet h m) (memFormBad s h m || decide (m.length = 0) || decide (8192 < m.length))
    (fun s p => s.memCheck p h.stream m .read)
    (fun s p id rx => s.runMem p id h m 0x11 m.length (memBody m.space m.cluster 0 0 m.length m.addr 0 0 []) rx
      (fun s => (s.readLocal m.space m.cluster m.addr m.length, s.noteRead none m.space m.cluster m.addr m.length))))

/-- MEM_ATOMIC (R131, R134). -/
def execMemAtomic (h : DescHdr) (m : MemOp) (a : AtomicArgs) (s : State) : Host.Outcome State Fault Refusal :=
  .next (s.beginHeld h 0x12 (.memAtomic h m a)
    (memFormBad s h m || !(a.width == 4 || a.width == 8) || decide (m.length ≠ a.width) || decide (m.addr % a.width ≠ 0) ||
      (a.op != .compareSwap && decide (a.b ≠ 0)))
    (fun s p => s.memCheck p h.stream m .atomic)
    (fun s p id rx => s.runMem p id h m 0x12 8 (memBody m.space m.cluster (atomicCode a.op) a.width m.length m.addr a.a a.b []) rx
      (fun s =>
        let r := s.atomicLocal m.space m.cluster m.addr a.width a.op a.a a.b
        (beBytes 8 r.1, r.2))))

/-- SO_OP ADD (R136, R137). -/
def execSoAdd (h : DescHdr) (id amount : Nat) (s : State) : Host.Outcome State Fault Refusal :=
  .next (s.begin h 0x20 (.soAdd h id amount) (decide (16384 ≤ id)) (fun s p => s.syncCheck p id)
    (fun s _ d =>
      let r := s.syncAdd id amount
      r.2.complete d (if r.1 then .ok else .overflow) (syncBody (r.2.syncValue id))))

/-- SO_OP WAIT_GE (R136). -/
def execSoWaitGe (h : DescHdr) (id target timeout : Nat) (s : State) : Host.Outcome State Fault Refusal :=
  .next (s.begin h 0x20 (.soWaitGe h id target timeout) (decide (16384 ≤ id) || decide (10000000 < timeout))
    (fun s p => s.syncCheck p id)
    (fun s p d =>
      if target ≤ s.syncValue id then s.complete d .ok (syncBody (s.syncValue id))
      else if timeout = 0 then s.complete d .timeout (syncBody (s.syncValue id))
      else if s.waits.countP (fun w => w.part == p) ≥ 16384 then s.complete d .quota (syncBody (s.syncValue id))
      else { s with waits := s.waits ++ [⟨d, p, id, target, timeout⟩] }))

/-- SO_OP RESET (R136, R137). -/
def execSoReset (h : DescHdr) (id : Nat) (s : State) : Host.Outcome State Fault Refusal :=
  .next (s.begin h 0x20 (.soReset h id) (decide (16384 ≤ id)) (fun s p => s.syncCheck p id)
    (fun s _ d => (s.setSync id 0).complete d .ok (syncBody 0)))

/-- SO_OP READ (R136). -/
def execSoRead (h : DescHdr) (id : Nat) (s : State) : Host.Outcome State Fault Refusal :=
  .next (s.begin h 0x20 (.soRead h id) (decide (16384 ≤ id)) (fun s p => s.syncCheck p id)
    (fun s _ d => s.complete d .ok (syncBody (s.syncValue id))))

/-- SO_WAIT_TIMEOUT (R136): the time of a pending wait has passed. -/
def execSoWaitTimeout (desc : Nat) (s : State) : Host.Outcome State Fault Refusal :=
  match s.waits.find? (fun w => w.desc == desc) with
  | some w => .next (s.complete desc .timeout (syncBody (s.syncValue w.sync)))
  | none => .next s

end Sys2Proof.Machine
end

