-- ==== Sys2Proof/Machine/Peals.lean ====
section
/-! DEFINITION. Groups and peals as books: lookup, numbering, messages out, trap records, and how a peal fails or finishes
(R141 to R168, R191). -/

namespace Sys2Proof.Machine

/-- A kind that reduces (R149). -/
def isReduce : PealKind → Bool
  | .reduce | .allReduce | .reduceScatter => true
  | .allGather | .broadcast => false

/-- Elements of chunk c of `count` (R149). -/
def chunkLen (count c : Nat) : Nat := min 4096 (count - 4096 * c)

/-- Chunks of `count` elements (R149). -/
def chunkCount (count : Nat) : Nat := ceilDiv count 4096

/-- The peal runs in exact mode: an exact group and a reduce kind (R160). -/
def exactPeal (g : GroupDef) (b : PealStart) : Bool := g.mode == 2 && isReduce b.kind

/-- A group names a projection program (R169). -/
def hasProj (g : GroupDef) : Bool := g.proj != 0xFFFF

/-- A chunk before anything is known of it. -/
def PealChunk.fresh (n : Nat) : PealChunk :=
  { number := n, expLocal := [], octets := [], expChildren := [], expUpSent := false, agreed := none, locals := [],
    copies := [], children := [], childrenDone := [], upSent := false, down := [], result := none, written := [],
    writing := [], localOct := none, projIn := none, projected := none, projRole := none, expanded := none,
    lost := false }

/-- A peal just created (R160). -/
def Peal.fresh (n : Nat) : Peal :=
  { number := n, state := .open, first := none, members := [], cut := none, chunks := [], todo := [], issued := 0,
    flags := .none, poisoned := false, saturated := false, trap := none, total := 0, early := [], incoming := [] }

/-- A group just defined (R144). -/
def Group.fresh (p : Nat) (g : GroupDef) (fromRecord : Bool) : Group :=
  { part := p, defn := g, fromRecord := fromRecord, base := 0, peals := [], retained := [], finished := [], staged := none }

/-- The peal state codes of R160. -/
def pealStateCode : PealState → Nat
  | .open => 1
  | .agreeing => 2
  | .reducing => 3
  | .delivering => 4

/-- A peal number in a group's window (R153). -/
def inWindow (g : Group) (n : Nat) : Bool := decide (serialDiff 32 n g.base < 4)

/-- The base after the finished numbers at it (R153); `fuel` steps. -/
def advanceBase : Nat → Nat → List Nat → Nat × List Nat
  | 0, b, l => (b, l)
  | f + 1, b, l => if l.contains b then advanceBase f ((b + 1) % 2 ^ 32) (l.filter (· != b)) else (b, l)

/-- A chunk of a peal; a fresh one where nothing is known. -/
def chunkOf (pl : Peal) (c : Nat) : PealChunk := (pl.chunks.find? (fun x => x.number == c)).getD (.fresh c)

/-- A peal with a chunk set. -/
def putChunk (pl : Peal) (x : PealChunk) : Peal :=
  { pl with chunks := if pl.chunks.any (fun y => y.number == x.number) then mapWhen (fun y => y.number == x.number) (fun _ => x) pl.chunks
                      else pl.chunks ++ [x] }

/-- The header of a Carillon message with its payload (R157). -/
def carillonBytes (kind status group fp peal chunk sender contributors off : Nat) (payload : Octets) : Octets :=
  [BitVec.ofNat 8 kind, BitVec.ofNat 8 status] ++ beBytes 2 group ++ beBytes 4 fp ++ beBytes 4 peal ++ beBytes 4 chunk ++
    beBytes 1 sender ++ zeros 3 ++ beBytes 4 contributors ++ beBytes 4 payload.length ++ beBytes 4 off ++ payload

/-- The completion body of PEAL_START (R154). -/
def pealBody (peal state total : Nat) : Octets := beBytes 4 peal ++ beBytes 1 state ++ zeros 3 ++ beBytes 4 total ++ zeros 4

/-- The group rank of a local rank: site rank first (R142). -/
def globalRank (g : GroupDef) (me r : Nat) : Nat := me * localCount g + r

/-- The runs, address and octets, that a member's destination takes of a chunk's result (R151). A REDUCE writes the root member's
destination alone (log entry 12). -/
def writeRuns (g : GroupDef) (b : PealStart) (c rank dst : Nat) (res : List (Nat × List (Option Nat))) : List (Nat × Octets) :=
  let z := b.outFmt.size
  let one := fun (l : List (Option Nat)) => elemBytes b.outFmt (l.map (fun v => v.getD 0))
  let runs := match b.kind with
    | .reduce => if rank == b.root then [(dst + 4096 * c * z, one (lookupD 0 [] res))] else []
    | .reduceScatter =>
      let per := b.count / groupSize g
      let is := (List.range (chunkLen b.count c)).filter (fun i => (4096 * c + i) / per == rank)
      match is with
      | [] => []
      | i :: _ => [(dst + (4096 * c + i - rank * per) * z, one (is.map (fun j => (lookupD 0 [] res).getD j none)))]
    | .allGather => res.map (fun (q : Nat × List (Option Nat)) => (dst + (q.1 * b.count + 4096 * c) * z, one q.2))
    | _ => [(dst + 4096 * c * z, one (lookupD 0 [] res))]
  runs.filter (fun r => !r.2.isEmpty)

namespace State

/-! ### Groups -/

/-- A defined group. -/
def group (s : State) (p gid : Nat) : Option Group := s.groups.find? (fun g => g.part == p && g.defn.group == gid)

/-- A group changed by `f`. -/
def updGroup (s : State) (p gid : Nat) (f : Group → Group) : State :=
  { s with groups := mapWhen (fun g => g.part == p && g.defn.group == gid) f s.groups }

/-- A remote site that an enabled LINE record of the partition's line mask names (R143). -/
def maskSite (s : State) (p site : Nat) : Bool :=
  let mask := ((s.conf.partOf p).map PartRec.lineMask).getD 0
  s.conf.lines.any (fun l => l.enabled && mask.testBit l.port && l.site == site)

/-- The site rank of the group's local site: the one site value that no enabled LINE record of the partition's mask names;
none when R143 is broken. -/
def localSite (s : State) (p : Nat) (g : GroupDef) : Option Nat :=
  if !g.axisMask.testBit 0 then some 0
  else match (List.range (siteCount g)).filter (fun k => !(s.maskSite p (siteOfRank g k))) with
    | [k] => some k
    | _ => none

/-! ### Peals -/

/-- An open peal. -/
def peal (s : State) (p gid n : Nat) : Option Peal := (s.group p gid).bind (fun g => g.peals.find? (fun x => x.number == n))

/-- An open peal changed by `f`. -/
def updPeal (s : State) (p gid n : Nat) (f : Peal → Peal) : State :=
  s.updGroup p gid (fun g => { g with peals := mapWhen (fun x => x.number == n) f g.peals })

/-- A chunk of an open peal changed by `f`. -/
def updChunk (s : State) (p gid n c : Nat) (f : PealChunk → PealChunk) : State :=
  s.updPeal p gid n (fun pl => putChunk pl (f (chunkOf pl c)))

/-- Stream base and class of a peal's messages: those of its first PEAL_START here, or, before one, the base of the gateway whose
message came first, which sent it on base + this gateway's site rank (R150; log entry 12). -/
def pealBase (s : State) (pl : Peal) (me : Nat) : Option (Nat × Class) :=
  match pl.first, pl.incoming with
  | some (_, base, cls), _ => some (base, cls)
  | none, (stream, site) :: _ => if me ≤ stream then some (stream - me, Fin.ofNat 8 (((s.ctx (accKey stream site)).map Ctx.cls).getD 0)) else none
  | none, [] => none

/-- Octets of a Carillon message offered on the stream to a site rank (R150, R157): the state, or the status of the stream
that cannot take it. -/
def sendMsg (s : State) (p : Nat) (g : GroupDef) (pl : Peal) (k kind status chunk contributors off : Nat) (payload : Octets) :
    Except Status State :=
  match s.localSite p g, (s.localSite p g).bind (s.pealBase pl) with
  | some me, some (base, cls) =>
    let chans := ((s.conf.partOf p).map PartRec.dma).getD []
    let chan := ((List.range 64).find? (fun c => (chans.getD g.slice 0).testBit c)).getD 0
    s.offerStream p 1 (base + k) (siteOfRank g k) cls (.carillonDma g.slice chan) (.peal p g.group pl.number)
      (carillonBytes kind status g.group (fingerprint g) pl.number chunk me contributors off payload) none
  | _, _ => .error .notPermitted

/-- ABORT to every tree neighbour but the one it came from, on streams that the partition holds and that lead there (R161). -/
def sendAborts (s : State) (p : Nat) (g : GroupDef) (pl : Peal) (st : Status) (src : Option Nat) : State :=
  match s.localSite p g with
  | none => s
  | some me =>
    ((allNeighbours (siteCount g) me).filter (fun k => some k != src)).foldl (fun s k =>
      let fits := (s.pealBase pl me).any (fun b => s.holdsStream p (b.1 + k) && s.leadsTo (b.1 + k) (siteOfRank g k))
      match (if fits then s.sendMsg p g pl k 5 (statusCode st) 0xFFFFFFFF 0 0 [] else .error .notPermitted) with
      | .ok t => t
      | .error _ => s) s

/-! ### DMA channels (R170) -/

/-- Channels that a partition holds on a slice. -/
def channels (s : State) (p k : Nat) : List Nat :=
  let m := (((s.conf.partOf p).map PartRec.dma).getD []).getD k 0
  (List.range 64).filter (fun c => m.testBit c)

/-- The channel that a peal's next transfer goes to: round robin, free when no transfer is on it (R170). -/
def nextChannel (s : State) (p k : Nat) (pl : Peal) : Option Nat :=
  (pickAt pl.issued (s.channels p k)).bind (fun c =>
    if s.xfers.any (fun x => x.part == p && x.writer == .carillonDma k c) then none else some c)
where
  /-- Element i of a list, wrapping. -/
  pickAt (i : Nat) (l : List Nat) : Option Nat := if l.isEmpty then none else l[i % l.length]?

/-- One piece of a peal's DMA work starts on a channel (R151, R170). -/
def issueWork (s : State) (p : Nat) (g : GroupDef) (pl : Peal) (b : PealStart) (w : PealWork) (chan : Nat) : State :=
  let s := s.updPeal p g.group pl.number (fun x => { x with todo := x.todo.drop 1, issued := x.issued + 1 })
  match w with
  | .read c r e =>
    match pl.members.find? (fun m => m.rank == r) with
    | none => s
    | some m => s.startRead p 0 m.cls (.carillonDma g.slice chan) (.contribution p g.group pl.number c r e)
        (m.src + 4096 * c * b.inFmt.size) (chunkLen b.count c * b.inFmt.size)
  | .write c r =>
    match pl.members.find? (fun m => m.rank == r), s.localSite p g with
    | some m, some me =>
      let ch := chunkOf pl c
      let res := match ch.expanded with
        | some v => [(0, v.map some)]
        | none => ch.result.getD []
      s.startWrite p 0 m.cls (.carillonDma g.slice chan) (.result p g.group pl.number c r)
        (writeRuns g b c (globalRank g me r) m.dst res)
    | _, _ => s

/-- Work of a partition's peals on a slice goes to free channels; `fuel` transfers at most (R170). -/
def pump (s : State) (p k : Nat) : Nat → State
  | 0 => s
  | n + 1 =>
    let cands := (s.groups.filter (fun g => g.part == p && g.defn.slice == k)).flatMap (fun g => g.peals.filterMap (fun pl => do
      let w ← pl.todo.head?
      let f ← pl.first
      let c ← s.nextChannel p k pl
      pure (g.defn, pl, f.1, w, c)))
    match cands.head? with
    | none => s
    | some (g, pl, b, w, c) => (s.issueWork p g pl b w c).pump p k n

/-! ### Trap records (R191, R192) -/

/-- A trap record joins a partition's ring. -/
def writeTrap (s : State) (p kind cause ident number index unitKind unit secs ns : Nat) : State :=
  let q := s.part p
  let r : TrapRec := { seq := q.trapSeq, kind := kind, cause := cause, ident := ident, number := number, ns := ns, index := index,
                       unitKind := unitKind, unit := unit, secs := secs }
  (s.updPart p (fun x => { x with traps := setEntry (q.trapSeq % 16) r x.traps, trapSeq := (q.trapSeq + 1) % 2 ^ 32 })).bump (.trapCount p)

/-- The trap record of a peal (R191). -/
def pealTrap (s : State) (p : Nat) (g : GroupDef) (pl : Peal) : State :=
  match pl.trap with
  | some (i, c, sec, ns) => s.writeTrap p 1 c g.group pl.number i 1 g.slice sec ns
  | none => s

/-- NaN traps halt the partition (R83, R191). -/
def haltsOnNan (s : State) (p : Nat) : Bool := ((s.conf.partOf p).map PartRec.haltOnNan).getD false

/-! ### The end of a peal (R153, R154, R160, R161) -/

/-- Flags of a strict peal are counted, each once (R177). -/
def countFlags (s : State) (strict : Bool) (f : FpFlags) (c : Nat → Ctr) : State :=
  if strict then ([0, 1, 2, 3].filter (fun i => f.bit i)).foldl (fun s i => s.bump (c i)) s else s

/-- A peal leaves the open peals and its number is finished and retained (R153). -/
def retain (s : State) (p gid : Nat) (pl : Peal) (st : Status) (failed : Bool) : State :=
  let r : Retained := { number := pl.number, status := st, contributors := pl.total, failed := failed, started := pl.members.map PealMember.rank }
  s.updGroup p gid (fun g =>
    let b := advanceBase 4 g.base (g.finished ++ [pl.number])
    let kept := g.retained ++ [r]
    { g with peals := g.peals.filter (fun x => x.number != pl.number), base := b.1, finished := b.2,
             retained := kept.drop (kept.length - 4) })

/-- Transfers of a peal are forgotten, which leaves their DMA channels; what still answers them is dropped (R161, R170). -/
def dropPealXfers (s : State) (p gid n : Nat) : State :=
  { s with xfers := s.xfers.filter (fun x => match x.use with
      | .contribution p' g' n' _ _ _ => !(p' == p && g' == gid && n' == n)
      | .result p' g' n' _ _ => !(p' == p && g' == gid && n' == n)
      | _ => true) }

/-- A slice's adder weight of a partition; 0 means no use of the slice (R40). -/
def weightOn (s : State) (p k : Nat) : Nat := (((s.conf.partOf p).map PartRec.weights).getD []).getD k 0

/-- What follows the end of a peal on its slice: a slice that waits for its peals to end may be substituted (R29). -/
def sliceQuiet (s : State) (k : Nat) : State :=
  if (s.sliceOf k).closed && !(s.groups.any (fun g => g.defn.slice == k && !g.peals.isEmpty)) then s.hand (.sliceSubstitute (fin4 k)) else s

/-- A slice accepts no new peal until its open peals have finished, once every partition with weight on it has passed a step
boundary since the fault of one of its groups (R29). -/
def closeSlice (s : State) (k : Nat) : State :=
  let x := s.sliceOf k
  if x.faulty.any (fun g => !(x.waitParts.any (fun w => w.1 == g))) then (s.updSlice k (fun x => { x with closed := true })).sliceQuiet k
  else s

/-- Faulty groups of the slices wait no longer for the boundaries of partition p (R29). -/
def slicesForget (s : State) (p : Nat) (f : Nat → Bool) : State :=
  (List.range 4).foldl (fun s k =>
    if f k && (s.sliceOf k).waitParts.any (fun w => w.2 == p) then
      (s.updSlice k (fun x => { x with waitParts := x.waitParts.filter (fun w => w.2 != p) })).closeSlice k
    else s) s

/-- A peal ends with a status: flags counted, its trap record written, its number retained, and its members answered, with
the sync object added to first where it succeeded (R154, R160, R177, R191). -/
def endPeal (s : State) (p gid n : Nat) (st : Status) (failed : Bool) : State :=
  match s.group p gid, s.peal p gid n with
  | some g, some pl =>
    let strict := (pl.first.map (fun f => f.1.strict)).getD false
    let s := (s.dropPealXfers p gid n).retain p gid pl st failed
    let s := s.countFlags strict pl.flags (fun i => .groupFlag p gid i)
    let s := if s.haltsOnNan p then s else s.pealTrap p g.defn pl
    let s := pl.members.foldl (fun s m =>
      let r : Bool × State := if st == .ok && m.addSync then s.syncAdd m.sync m.syncAmount else (true, s)
      r.2.complete m.desc (if r.1 then st else .overflow) (pealBody n (if failed then 6 else 5) pl.total)) s
    s.sliceQuiet g.defn.slice
  | _, _ => s

/-- Channels that ended peals have left go to other peals of the partition (R170). -/
def pumpAll (s : State) (p : Nat) : State := (List.range 4).foldl (fun s k => s.pump p k 64) s

/-- A peal enters FAILED: ABORT to its neighbours, then its end (R160, R161). Its DMA channels stay as they are. -/
def dropPeal (s : State) (p gid n : Nat) (st : Status) (src : Option Nat) : State :=
  match s.group p gid, s.peal p gid n with
  | some g, some pl => (s.sendAborts p g.defn pl st src).endPeal p gid n st true
  | _, _ => s

/-- A peal fails, and its DMA channels go to other peals (R160, R161, R170). -/
def failPeal (s : State) (p gid n : Nat) (st : Status) (src : Option Nat) : State := (s.dropPeal p gid n st src).pumpAll p

/-- Open peals of a group. -/
def openPeals (s : State) (p gid : Nat) : List (Nat × Nat) :=
  ((s.group p gid).map (fun g => g.peals.map (fun x => (gid, x.number)))).getD []

/-- Several peals of a partition fail, then their DMA channels go to others (R160, R161, R170). -/
def failList (s : State) (p : Nat) (l : List (Nat × Nat)) (st : Status) : State :=
  (l.foldl (fun s x => s.dropPeal p x.1 x.2 st none) s).pumpAll p

/-- Every open peal of a partition fails (R193, R59). -/
def failPeals (s : State) (p : Nat) (st : Status) : State :=
  s.failList p ((s.groups.filter (fun g => g.part == p)).flatMap (fun g => g.peals.map (fun x => (g.defn.group, x.number)))) st

/-- Open peals that a failed stream carries: those whose neighbour streams it is of, or on which their messages arrived (R160,
R324). -/
def pealsOn (s : State) (k : CtxKey) : List (Nat × Nat × Nat) :=
  s.groups.flatMap (fun g => (g.peals.filter (fun pl =>
    if k.accepted then pl.incoming.contains (k.stream, k.site)
    else match pl.first, s.localSite g.part g.defn with
      | some (_, base, _), some me => (allNeighbours (siteCount g.defn) me).any (fun r => base + r == k.stream)
      | _, _ => false)).map (fun pl => (g.part, g.defn.group, pl.number)))

/-- Peals that a failed stream carries fail: KEY_ERASED where its key slot was erased, STREAM_FAILED otherwise (R160,
R324). -/
def failPealsOn (s : State) (k : CtxKey) (st : Status) : State :=
  match s.streamPart k.stream with
  | none => s
  | some p => s.failList p (((s.pealsOn k).filter (fun x => x.1 == p)).map Prod.snd) (if st == .keyErased then .keyErased else .streamFailed)

end State

end Sys2Proof.Machine
end

