-- ==== Sys2Proof/Machine/Programs.lean ====
section
/-! DEFINITION. The program store, loads, and invocations from acceptance to completion (R199 to R202, R217 to R223). -/

namespace Sys2Proof.Machine

/-- The octets that the signature of a load covers before text and data: BEGIN body octets 0 to 120 (R218). -/
def beginOctets (b : ProgBegin) : Octets :=
  [0x01, 0x00] ++ beBytes 2 b.index ++ beBytes 2 b.clusters ++ beBytes 1 b.cores ++ zeros 1 ++ beBytes 4 b.entry ++
    beBytes 4 b.textLen ++ beBytes 4 b.dataLen ++ beBytes 4 b.watchdog ++ b.pubKey

/-- A PROG_LOAD BEGIN field outside its range (R91, R218, R219). -/
def beginBad (b : ProgBegin) : Bool :=
  decide (256 ≤ b.index) || decide (b.cores = 0) || decide (16 < b.cores) || decide (b.entry % 2 ≠ 0) || decide (b.textLen ≤ b.entry) ||
  decide (b.textLen < 2) || decide (65536 < b.textLen) || decide (131072 < b.dataLen) || decide (b.watchdog = 0) ||
  decide (10000000 < b.watchdog) || decide (b.pubKey.length ≠ 97) || decide (b.pubKey.head? ≠ some 0x04)

/-- The completion body of PROG_INVOKE (R222). -/
def invBody (v : Invocation) : Octets :=
  let code := match v.ended with
    | some .exception => 1
    | some .watchdog => 2
    | some .trap => 3
    | _ => 0
  beBytes 4 v.number ++ beBytes 1 code ++ beBytes 1 v.core ++ zeros 2 ++ beBytes 8 v.exit.toNat ++ beBytes 8 v.mcause ++
    beBytes 8 v.mepc ++ beBytes 8 v.mtval

/-- A core at the start of an invocation (R199, R203). -/
def coreStart (v : Invocation) (hart : Nat) (c : Core) : Core :=
  let regs := v.args.zipIdx.foldl (fun (r : Vector Word64 32) a => if h : 10 + a.2 < 32 then r.set (10 + a.2) a.1 else r)
    ((Vector.replicate 32 (0 : Word64)).set 2 0x00120000)
  { c with inv := some v.id, running := true, pc := BitVec.ofNat 64 v.image.entry, regs := regs,
           imem := memWrite 0 [] 0 v.image.text, dmem := memWrite 0 [] 0x00100000 v.image.data,
           resident := some (v.image.part, v.image.index, v.image.load), hart := hart, windows := Vector.replicate 16 0,
           statusTrunc := false, statusIndex := false, scount := 0, sscalar := 0, sinv := BitVec.ofNat 32 v.number, cycles := 0,
           instret := 0, reserve := none, mcause := 0, mepc := 0, mtval := 0, dmaNext := 0, dmaTickets := [], matNext := 0,
           matTickets := [], matOpen := [], stall := .none }

namespace State

/-! ### Clusters and cores -/

/-- Logical cores of a cluster that no invocation holds (R221). -/
def freeCores (s : State) (c : Nat) : List Nat :=
  ((List.range 16).map (fun k => 16 * c + k)).filter (fun k => (s.core k).inv.isNone && !(s.core k).faulty)

/-- A cluster that sleeps is asked to wake for work (R425). -/
def needCluster (s : State) (c : Nat) : State :=
  let k := s.cluster c
  if k.entering.isSome then { s with power := { s.power with clusterCause := (s.power.clusterCause ++ [c]).eraseDups } }
  else if k.power == 0 || k.waking then s
  else (s.updCluster c (fun x => { x with waking := true })).hand (.wakeDone (.cluster (fin16 c)))

/-- A plane that is folded, or folds, is asked to wake (R426, R428). -/
def needPlane (s : State) (k : Nat) : State :=
  let d := s.power.planes.getD k .run
  let put := fun (x : PowerState) => ({ s with power := { s.power with planes := s.power.planes.set k x } } : State)
  if d.entering.isSome then put { d with cause := true }
  else if d.state == 0 || d.waking then s
  else (put { d with waking := true }).hand (.wakeDone (.plane (fin4 k)))

/-- A plane, or the device, is in A0 and stays there (R423). -/
def inRun (d : PowerState) : Bool := d.state == 0 && !d.waking && d.entering.isNone

/-- What a PARTITION record assigns lies on a plane (R426). -/
def onPlane (r : PartRec) (k : Nat) : Bool :=
  r.pairs.any (fun q => decide (q.1 < 64) && q.1 / 16 == k) || (List.range 4).any (fun i => r.hasCluster (4 * k + i)) ||
    r.weights.getD k 0 != 0

/-- Every plane that a configuration assigns something on is awake, and so is the device (R426). -/
def awakeFor (s : State) (n : Conf) : Bool :=
  inRun s.power.device && (List.range 4).all (fun k => !(n.parts.any (fun r => onPlane r k)) || inRun (s.power.planes.getD k .run))

/-- The planes that a configuration assigns something on are woken; a device that is entering Watch comes back from it (R426,
R428). -/
def wakeFor (s : State) (n : Conf) : State :=
  let d := s.power.device
  let s : State := if d.entering.isSome then { s with power := { s.power with device := { d with cause := true } } } else s
  ((List.range 4).filter (fun k => n.parts.any (fun r => onPlane r k))).foldl needPlane s

/-- A cluster can run work (R423). -/
def clusterReady (s : State) (c : Nat) : Bool := (s.cluster c).power == 0 && !(s.cluster c).waking && (s.cluster c).entering.isNone

/-- The cluster of a mask with the most free cores, the lowest-numbered on a tie (R221). -/
def pickCluster (s : State) (mask : Nat) : Option Nat :=
  let cs := (List.range 16).filter (fun c => mask.testBit c && !(s.cluster c).retired)
  cs.foldl (fun b c => match b with
    | none => some c
    | some d => if (s.freeCores d).length < (s.freeCores c).length then some c else some d) none

/-! ### Program store (R87, R217) -/

/-- The image of an index. -/
def prog (s : State) (p index : Nat) : Option ProgImage := s.progs.find? (fun g => g.part == p && g.index == index)

/-- An image placed at its index. -/
def putProg (s : State) (g : ProgImage) : State :=
  { s with progs := s.progs.filter (fun x => !(x.part == g.part && x.index == g.index)) ++ [g] }

/-- Octets that the system regions of a line die offer to program images (R87). -/
def storeRoom (s : State) (die : Nat) : Nat :=
  ((List.range 3).countP (fun k => !(s.boot.stackOff.contains (3 * die + k)))) * 2 ^ 30 - 384 * 2 ^ 20

/-- Octets of program images on a line die: even partitions on L0, odd ones on L1 (R87). -/
def storeUsed (s : State) (die : Nat) : Nat := 196608 * s.progs.countP (fun g => g.part % 2 == die)

/-- Staged images whose step boundary has passed and whose old image runs no longer are handed on (R219). -/
def swapReady (s : State) (p : Nat) : State :=
  ((s.part p).stagedProgs.filter (fun g => g.2 && !(s.invs.any (fun v => v.part == p && v.index == g.1.index)))).foldl
    (fun s g => s.hand (.progImageSwap (fin64 p) g.1.index)) s

/-! ### Invocations -/

/-- An invocation by the model's number. -/
def inv (s : State) (id : Nat) : Option Invocation := s.invs.find? (fun v => v.id == id)

/-- An invocation changed by `f`. -/
def updInv (s : State) (id : Nat) (f : Invocation → Invocation) : State := { s with invs := mapWhen (fun v => v.id == id) f s.invs }

/-- An invocation accepted for a cluster: its number, and its place in the cluster's order (R221). -/
def acceptInv (s : State) (p : Nat) (g : ProgImage) (c : Nat) (args : List Word64) (purpose : InvFor) (addSync : Bool) (sync amount : Nat) : State :=
  let n := (s.part p).nextInvocation
  let v : Invocation :=
    { id := s.nextInv, part := p, number := n, index := g.index, cluster := c, image := g, args := args, purpose := purpose,
      addSync := addSync, sync := sync, syncAmount := amount, cores := [], ended := none, status := .ok, core := 0, exit := 0,
      mcause := 0, mepc := 0, mtval := 0, flags := .none, poisoned := false, trap := none, wrote := [] }
  let s := { s with invs := s.invs ++ [v], nextInv := s.nextInv + 1 }
  let s := s.updPart p (fun q => { q with nextInvocation := (n + 1) % 2 ^ 32 })
  ((s.updCluster c (fun k => { k with waiting := k.waiting ++ [v.id] })).needCluster c).hand (.invocationStart (fin16 c))

/-- The first invocation that waits on a cluster starts when enough cores are free (R199, R221). -/
def startInv (s : State) (c : Nat) : State :=
  match (s.cluster c).waiting.head?.bind s.inv with
  | none => s
  | some v =>
    let cs := (s.freeCores c).take v.image.cores
    if !(s.clusterReady c) || cs.length < v.image.cores then s.needCluster c
    else
      let s := s.updCluster c (fun k => { k with waiting := k.waiting.drop 1 })
      let s := s.updInv v.id (fun x => { x with cores := cs })
      let s := cs.zipIdx.foldl (fun s k => s.updCore k.1 (coreStart v k.2)) s
      if (s.cluster c).waiting.isEmpty then s else s.hand (.invocationStart (fin16 c))

/-- Work of an invocation that has not finished (R202). -/
def workLeft (s : State) (id : Nat) : Bool :=
  s.clusters.toList.any (fun c => c.streamQ.any (fun j => j.inv == id) || c.dmaQ.any (fun j => j.inv == id)) ||
  s.engines.toList.any (fun e => e.queue.any (fun j => j.inv == id))

/-- An invocation that has ended and has no work left completes (R202). -/
def checkInv (s : State) (id : Nat) : State :=
  match s.inv id with
  | some v => if v.ended.isSome && !v.cores.isEmpty && !(s.workLeft id) then s.hand (.invocationEnd id) else s
  | none => s

/-- An invocation that has not started leaves its cluster's order. -/
def unwait (s : State) (v : Invocation) : State := s.updCluster v.cluster (fun k => { k with waiting := k.waiting.filter (· != v.id) })

/-- The check-value lock passes to the next core that waits for it, or is free (R229). -/
def passLock (s : State) (c : Nat) : State :=
  match (s.cluster c).cvWaiting with
  | [] => s.updCluster c (fun k => { k with cvHolder := none })
  | k :: r =>
    let s := s.updCluster c (fun x => { x with cvHolder := some k, cvWaiting := r })
    s.updCore k (fun x => match x.stall with
      | .cvlock rd =>
        { x with
          stall := .none, pc := x.pc + 4, instret := x.instret + 1,
          regs := if h : 0 < rd ∧ rd < 32 then x.regs.set rd 0 (by omega) else x.regs }
      | _ => x)

/-- Cores of an invocation that has ended neither hold the check-value lock nor wait for it (R223, R229). -/
def leaveLock (s : State) (v : Invocation) : State :=
  let s := s.updCluster v.cluster (fun k => { k with cvWaiting := k.cvWaiting.filter (fun x => !(v.cores.contains x)) })
  if ((s.cluster v.cluster).cvHolder.map (fun k => v.cores.contains k)).getD false then s.passLock v.cluster else s

/-- An invocation ends: its cores stop, the check-value lock is free of them, and a DMA transfer not yet started is abandoned (R200
to R202, R223, R229). A later end is ignored. -/
def endInv (s : State) (id : Nat) (e : InvEnd) (st : Status) (core : Nat) (exit : Word64) (mcause mepc mtval : Nat) : State :=
  match s.inv id with
  | none => s
  | some v =>
    if v.ended.isSome then s
    else
      let s := s.updInv id (fun x => { x with
        ended := some e, status := st, core := core, exit := exit, mcause := mcause, mepc := mepc, mtval := mtval })
      let s := v.cores.foldl (fun s k => s.updCore k (fun c => { c with running := false, stall := .none })) s
      let s := (s.updCluster v.cluster (fun k => { k with dmaQ := k.dmaQ.filter (fun j => j.inv != id || j.started) })).leaveLock v
      if v.cores.isEmpty then (s.unwait v).hand (.invocationEnd id) else s.checkInv id

/-- An invocation ends as at a watchdog expiry, counted as a hang (R223, R412). -/
def hangInv (s : State) (id : Nat) : State :=
  match s.inv id with
  | some v => if v.ended.isSome then s else (s.bumpPart v.part 3).endInv id .watchdog .hangRestart 0 0 0 0 0
  | none => s

/-- An ended invocation lets go of its cores (R221, R223). -/
def releaseCores (s : State) (v : Invocation) : State :=
  let s := v.cores.foldl (fun s k => s.updCore k (fun c =>
    { c with inv := none, running := false, stall := .none, matOpen := [], resident := if v.ended == some .watchdog then none else c.resident })) s
  s.leaveLock v

/-- Device-local ranges take undefined contents (R202; log entry 3). -/
def spoil (s : State) (l : List (Space × Nat × Nat × Nat)) : State :=
  l.foldl (fun s r =>
    let f := s.freeOctets r.2.2.2
    f.2.writeLocal r.1 r.2.1 r.2.2.1 f.1) s

/-- The status of an ended invocation (R222). -/
def invStatus (v : Invocation) : Status := if v.ended == some .exit && v.poisoned then .poisonedNan else v.status

/-- An invocation completes: flags counted, its trap record written, its cores free, and its sender told (R177, R191, R202,
R222). -/
def finishInv (s : State) (id : Nat) : State :=
  match s.inv id with
  | none => s
  | some v =>
    if v.ended.isNone || s.workLeft id then s
    else
      let s := s.countFlags true v.flags (fun i => .progFlag v.part v.index i)
      let s := match v.trap with
        | some (i, c, uk, u, sec, ns) => if s.haltsOnNan v.part then s else s.writeTrap v.part 2 c v.index v.number i uk u sec ns
        | none => s
      let s := if v.ended == some .exit then s else s.spoil v.wrote
      let s := (s.releaseCores v).updInv id (fun x => { x with cores := [], flags := .none, trap := none, wrote := [] })
      let st := invStatus v
      let s := match v.purpose with
        | .projection .. => s.hand (.projectionDone id)
        | .desc d =>
          let s := { s with invs := s.invs.filter (fun x => x.id != id) }
          let r : Bool × State := if st == Status.ok && v.addSync then s.syncAdd v.sync v.syncAmount else (true, s)
          r.2.complete d (if r.1 then st else .overflow) (invBody v)
      (s.swapReady v.part).hand (.invocationStart (fin16 v.cluster))

/-- Statuses of PROG_INVOKE that need the partition's resources (R221). -/
def invokeCheck (s : State) (p : Nat) (b : ProgInvoke) : Option (Status × Octets) :=
  match s.prog p b.index with
  | none => some (.notPermitted, [])
  | some g =>
    if b.cluster ≠ 0xFF && !g.clusters.testBit b.cluster then some (.badDescriptor, [])
    else if b.addSync && (s.syncCheck p b.sync).isSome then some (.notPermitted, [])
    else if b.cluster ≠ 0xFF && (s.cluster b.cluster).retired then some (.notPermitted, [])
    else if b.cluster == 0xFF && (s.pickCluster g.clusters).isNone then some (.notPermitted, [])
    else none

/-- A partition's load abandoned (R219). -/
def dropLoad (s : State) (p : Nat) : State := s.updPart p (fun q => { q with load := none })

/-- A DATA or END that does not fit the open load, which is no resource that a partition holds (R127, R219). -/
def loadForm (fits : Bool) : Option Octets := if fits then none else some []

/-- The statuses of BEGIN that need the partition's resources (R87, R219). -/
def beginCheck (s : State) (p : Nat) (b : ProgBegin) : Option (Status × Octets) :=
  let r := s.conf.partOf p
  if !((r.map PartRec.tenantPrograms).getD false) then some (.notPermitted, [])
  else if (b.clusters &&& (r.map PartRec.clusterMask).getD 0) ≠ b.clusters then some (.notPermitted, [])
  else if (s.prog p b.index).isNone && s.storeRoom (p % 2) < s.storeUsed (p % 2) + 196608 then some (.quota, [])
  else none

/-- An accepted load takes effect at once, or is staged where its index holds a program (R219). -/
def endLoad (s : State) (p : Nat) (l : OpenLoad) (d : Nat) : State :=
  let g : ProgImage :=
    { part := p, index := l.hdr.index, clusters := l.hdr.clusters, cores := l.hdr.cores, entry := l.hdr.entry,
      watchdog := l.hdr.watchdog, text := l.octets.take l.hdr.textLen, data := l.octets.drop l.hdr.textLen, load := s.nextLoad }
  let s := { s.dropLoad p with nextLoad := s.nextLoad + 1 }
  if (s.prog p g.index).isNone then (s.putProg g).complete d .ok []
  else (s.updPart p (fun q => { q with stagedProgs := q.stagedProgs.filter (fun x => x.1.index != g.index) ++ [(g, false)] })).complete d .pending []

end State

/-! ### Meanings -/

/-- PROG_LOAD BEGIN (R218, R219). -/
def execProgLoadBegin (h : DescHdr) (b : ProgBegin) (s : State) : Host.Outcome State Fault Refusal :=
  .next (s.begin h 0x30 (.progLoadBegin h b) (beginBad b) (fun s p => s.beginCheck p b)
    (fun s p d => (s.updPart p (fun q => { q with load := some ⟨b, []⟩ })).complete d .ok []))

/-- PROG_LOAD DATA (R218, R219). -/
def execProgLoadData (h : DescHdr) (index offset : Nat) (data : Octets) (s : State) : Host.Outcome State Fault Refusal :=
  .next (s.begin h 0x30 (.progLoadData h index offset data)
    (decide (256 ≤ index) || decide (data.length = 0) || decide (8192 < data.length))
    (fun _ _ => none)
    (fun s p d =>
      (s.updPart p (fun q => { q with load := q.load.map (fun l => { l with octets := l.octets ++ data }) })).complete d .ok [])
    (fun s p => State.loadForm ((s.part p).load.any (fun l => l.hdr.index == index && offset == l.octets.length &&
      decide (offset + data.length ≤ l.hdr.textLen + l.hdr.dataLen)))))

/-- PROG_LOAD END (R218, R219). -/
def execProgLoadEnd (h : DescHdr) (index : Nat) (sig : Octets) (s : State) : Host.Outcome State Fault Refusal :=
  .next (s.begin h 0x30 (.progLoadEnd h index sig) (decide (256 ≤ index) || decide (sig.length ≠ 96))
    (fun _ _ => none)
    (fun s p d => match (s.part p).load with
      | none => s.complete d .badDescriptor []
      | some l =>
        if some (sha384 l.hdr.pubKey) == (s.conf.partOf p).map PartRec.progKeyHash &&
            ecdsaVerify l.hdr.pubKey (beginOctets l.hdr ++ l.octets) sig
        then s.endLoad p l d else (s.dropLoad p).complete d .notPermitted [])
    (fun s p => State.loadForm ((s.part p).load.any (fun l => l.hdr.index == index && l.octets.length == l.hdr.textLen + l.hdr.dataLen))))

/-- PROG_LOAD_TIMEOUT (R219): the open load is abandoned. -/
def execProgLoadTimeout (p : PartId) (s : State) : Host.Outcome State Fault Refusal := .next (s.dropLoad p)

/-- PROG_IMAGE_SWAP (R219): a staged image whose step boundary has passed takes its index when the old image runs no longer. -/
def execProgImageSwap (p : PartId) (index : Nat) (s : State) : Host.Outcome State Fault Refusal :=
  match (s.part p).stagedProgs.find? (fun g => g.1.index == index) with
  | some (g, true) =>
    .next (if s.invs.any (fun v => v.part == p.val && v.index == index) then s
      else (s.putProg g).updPart p (fun q => { q with stagedProgs := q.stagedProgs.filter (fun x => x.1.index != index) }))
  | _ => .next s

/-- PROG_INVOKE (R220, R221). -/
def execProgInvoke (h : DescHdr) (b : ProgInvoke) (s : State) : Host.Outcome State Fault Refusal :=
  .next (s.begin h 0x31 (.progInvoke h b)
    (decide (256 ≤ b.index) || (decide (16 ≤ b.cluster) && decide (b.cluster ≠ 0xFF)) || decide (16384 ≤ b.sync) || decide (b.args.length ≠ 8))
    (fun s p => s.invokeCheck p b)
    (fun s p d => match s.prog p b.index with
      | none => s.complete d .notPermitted []
      | some g =>
        match if b.cluster = 0xFF then s.pickCluster g.clusters else some b.cluster with
        | none => s.complete d .notPermitted []
        | some c => s.acceptInv p g c b.args (.desc d) b.addSync b.sync b.syncAmount))

/-- INVOCATION_START (R199, R221). -/
def execInvocationStart (c : ClusterId) (s : State) : Host.Outcome State Fault Refusal := .next (s.startInv c)

/-- INVOCATION_END (R202, R222). -/
def execInvocationEnd (invocation : Nat) (s : State) : Host.Outcome State Fault Refusal := .next (s.finishInv invocation)

/-- WATCHDOG_EXPIRY (R223): the invocation of a running core ends with HANG_RESTART. -/
def execWatchdogExpiry (core : CoreId) (s : State) : Host.Outcome State Fault Refusal :=
  match (s.core core).inv with
  | some id =>
    .next (if (s.core core).running then s.hangInv id else s)
  | none => .next s

end Sys2Proof.Machine
end

