-- ==== Sys2Proof/Machine/Traps.lean ====
section
/-! DEFINITION. NaN traps: their records and the halt policy (R190 to R194). -/

namespace Sys2Proof.Machine

namespace State

/-- Engine commands of a partition's invocations leave their queues: they end with POISONED_NAN (R193). -/
def dropMatrix (s : State) (p : Nat) : State :=
  { s with engines := s.engines.map (fun e => { e with queue := e.queue.filter (fun j => (s.inv j.inv).any (fun v => v.part != p)) }) }

/-- The halt policy's actions, in order: HALTED, every peal fails with POISONED_NAN and sends ABORT, every invocation and
matrix command ends with POISONED_NAN (R193). -/
def haltPart (s : State) (p : Nat) : State :=
  let s := if (s.part p).state == .active then s.setPState p .halted 6 else s
  -- a reload or release that waits is applied at once (R112)
  let s := if (s.part p).reload.isSome then s.hand (.stepBoundary (fin64 p)) else s
  let s := (s.failPeals p .poisonedNan).dropMatrix p
  ((s.invs.filter (fun v => v.part == p)).map Invocation.id).foldl (fun s id =>
    (s.endInv id .trap .poisonedNan 0 0 0 0 0).checkInv id) s

/-- An element of a peal traps: under the halt policy its record is written at once and the partition halts; otherwise the
lowest index is kept (R191, R193). -/
def trapPeal (s : State) (p gid n idx cause : Nat) : State :=
  match s.group p gid, s.peal p gid n with
  | some g, some pl =>
    if s.haltsOnNan p then
      (s.writeTrap p 1 cause gid n idx 1 g.defn.slice s.quartz.secs s.quartz.ns).haltPart p
    else
      let t := (idx, cause, s.quartz.secs, s.quartz.ns)
      s.updPeal p gid n (fun x => { x with
        poisoned := true, trap := match pl.trap with
          | some u => if u.1 ≤ idx then some u else some t
          | none => some t })
  | _, _ => s

/-- An element of a stream instruction or matrix command of an invocation traps (R191, R193). `kind` is the source kind of
R192. A matrix command's record is written by its own end. -/
def trapInv (s : State) (id kind idx cause unitKind unit : Nat) : State :=
  match s.inv id with
  | none => s
  | some v =>
    if s.haltsOnNan v.part then
      if kind == 2 && v.poisoned then s
      else ((s.writeTrap v.part kind cause v.index v.number idx unitKind unit s.quartz.secs s.quartz.ns).updInv id (fun x => { x with poisoned :=
        true })).haltPart v.part
    else
      let t := (idx, cause, unitKind, unit, s.quartz.secs, s.quartz.ns)
      if kind == 3 then
        (s.writeTrap v.part 3 cause v.index v.number idx unitKind unit s.quartz.secs s.quartz.ns).updInv id (fun x => { x with poisoned := true })
      else s.updInv id (fun x => { x with
        poisoned := true, trap := match v.trap with
          | some u => if u.1 ≤ idx then some u else some t
          | none => some t })

end State

end Sys2Proof.Machine
end

