-- ==== Sys2Proof/Machine/CarillonFlow.lean ====
section
/-! DEFINITION. The data flow of a peal on one gateway: reads and writes over the DMA channels, the exponent pass, the sum or
only pass, results, messages up and down, and projection (R149, R155 to R171, R178 to R187, R224, R225). -/

namespace Sys2Proof.Machine

/-- Every element of `a` is in `b`. -/
def allIn (a b : List Nat) : Bool := a.all (fun x => b.contains x)

/-- The local ranks that a peal reads here: the contributor set, or for BROADCAST the root alone (R151, R164). -/
def readersOf (g : GroupDef) (b : PealStart) (me : Nat) (pl : Peal) : List Nat :=
  let cut := pl.cut.getD []
  if b.kind == .broadcast then cut.filter (fun r => globalRank g me r == b.root) else cut

/-- Group ranks of the members of the subtree of a site rank, in rank order (R157). -/
def subtreeMembers (g : GroupDef) (treeB : Bool) (k : Nat) : List Nat :=
  (subtreeRanks (siteCount g) treeB k).flatMap (fun q => (List.range (localCount g)).map (fun r => q * localCount g + r))

/-- Elements of a chunk that belong to the members of a subtree in REDUCE_SCATTER, by index in the chunk (R157). -/
def scatterIndexes (g : GroupDef) (b : PealStart) (treeB : Bool) (c k : Nat) : List Nat :=
  let per := b.count / groupSize g
  let ms := subtreeMembers g treeB k
  (List.range (chunkLen b.count c)).filter (fun i => ms.contains ((4096 * c + i) / per))

/-- Length of a chunk's vector at the site level: the projected length with a projection program (R169, R225). -/
def siteLen (g : GroupDef) (b : PealStart) (ch : PealChunk) : Nat :=
  if hasProj g then (ch.projected.getD []).length else chunkLen b.count ch.number

/-- Octets of a partial element of a peal (R157). -/
def pealPartial (g : GroupDef) (b : PealStart) : Nat := partialSize (exactPeal g b) b.inFmt g.w

/-- The payload that a UP message from a child holds (R157). The chunks of ALL_GATHER and BROADCAST travel in the output format, and a
BROADCAST subtree without the root member sends an empty payload (log entry 12). -/
def upPayload (g : GroupDef) (b : PealStart) (ch : PealChunk) (k : Nat) : Nat :=
  let t := chunkTree ch.number
  match b.kind with
  | .allGather => (subtreeMembers g t k).length * chunkLen b.count ch.number * b.outFmt.size
  | .broadcast => if (subtreeMembers g t k).contains b.root then chunkLen b.count ch.number * b.outFmt.size else 0
  | _ => siteLen g b ch * pealPartial g b

/-- The ranks and element indexes that a RESULT_DOWN toward a site rank holds (R157). -/
def downKeys (g : GroupDef) (b : PealStart) (ch : PealChunk) (k : Nat) : List (Nat × Nat) :=
  let n := chunkLen b.count ch.number
  match b.kind with
  | .allGather => (List.range (groupSize g)).flatMap (fun q => (List.range n).map (fun i => (q, i)))
  | .reduceScatter => (scatterIndexes g b (chunkTree ch.number) ch.number k).map (fun i => (0, i))
  | .broadcast => (List.range n).map (fun i => (0, i))
  | _ => (List.range (siteLen g b ch)).map (fun i => (0, i))

/-- The exponent octets of one vector over its local and child inputs: their maximum (R181). -/
def maxOctets (n : Nat) (ls : List (List Nat)) : List Nat := (List.range n).map (fun i => (ls.map (fun l => l.getD i 0)).foldl max 0)

/-- An element read in the sum pass (R155, R178, R182). -/
def readElem (g : GroupDef) (b : PealStart) (octets : List Nat) (i v : Nat) : Elem :=
  if exactPeal g b then exactInput b.strict b.inFmt g.w (groupP g) (octets.getD (i / 64) 0) v else orderedInput b.strict b.inFmt v

/-- The elements of one contribution (R155, R178, R182). -/
def readElems (g : GroupDef) (b : PealStart) (octets vs : List Nat) : List Elem :=
  vs.zipIdx.map (fun x => readElem g b octets x.2 x.1)

/-- The local level of one element: the tree over local ranks in ordered mode, the sum in exact mode (R149, R178, R182). -/
def localElem (g : GroupDef) (b : PealStart) (treeB : Bool) (own : Nat → Elem) (ranks : List Nat) : Elem :=
  if exactPeal g b then ranks.foldl (fun a r => exactAdd b.inFmt.isInt g.w a (own r)) .zero
  else treeValue (orderedAdd b.strict b.inFmt.isInt) own (localCount g) treeB 33 (rootPosition (localCount g))

/-- The local level of a chunk of `n` elements. -/
def localValue (g : GroupDef) (b : PealStart) (treeB : Bool) (locals : List (Nat × List Elem)) (n : Nat) : List Elem :=
  (List.range n).map (fun i =>
    localElem g b treeB (fun r => (lookupD r [] locals).getD i .zero) (locals.map Prod.fst))

/-- The site level of one element on this gateway: (left + own) + right in ordered mode, the sum in exact mode (R149, R178,
R182). -/
def siteElem (g : GroupDef) (b : PealStart) (own : Elem) (left right : Option Elem) : Elem :=
  let f := fun x y => if exactPeal g b then exactAdd b.inFmt.isInt g.w x y else orderedAdd b.strict b.inFmt.isInt x y
  let v := match left with
    | some l => f l own
    | none => own
  match right with
  | some r => f v r
  | none => v

/-- The site level of a chunk: the children's partials are read from their payloads (R178, R182). -/
def siteValue (g : GroupDef) (b : PealStart) (me : Nat) (ch : PealChunk) (own : List Elem) : List Elem :=
  let n := siteCount g
  let t := chunkTree ch.number
  let lr := leftRight (positionOf n t me) n
  let child := fun (p : Option Nat) => p.map (fun q =>
    partialsOf (exactPeal g b) b.inFmt g.w own.length ((ch.children.find? (fun x => x.1 == rankAt n t q)).map (fun x => x.2.2) |>.getD []))
  let l := child lr.1
  let r := child lr.2
  own.zipIdx.map (fun x => siteElem g b x.1 (l.map (fun z => z.getD x.2 .zero)) (r.map (fun z => z.getD x.2 .zero)))

/-- The result of one element at the root, in a given output format (R178, R182, R187). -/
def resultElem (g : GroupDef) (b : PealStart) (out : Fmt) (octets : List Nat) (i : Nat) (e : Elem) : Result :=
  if exactPeal g b then exactResult b.strict b.inFmt out g.w (groupP g) (octets.getD (i / 64) 0) e else orderedResult b.strict b.inFmt out e

/-- The results of a vector. -/
def resultElems (g : GroupDef) (b : PealStart) (out : Fmt) (octets : List Nat) (es : List Elem) : List Result :=
  es.zipIdx.map (fun x => resultElem g b out octets x.2 x.1)

/-- The lowest index that trapped, with its cause. -/
def firstTrap (l : List (Option Nat)) : Option (Nat × Nat) := l.zipIdx.findSome? (fun x => x.1.map (fun c => (x.2, c)))

/-- The trap that a contribution raises in the exponent pass (R180, R190). -/
def exponentTrap (strict : Bool) (f : Fmt) (v : Nat) : Option Nat :=
  if f.isInt then none
  else match operandNum strict f v with
    | .nan => some 1
    | .inf _ => some 2
    | _ => none

/-- Flags of a list. -/
def allFlags (l : List FpFlags) : FpFlags := l.foldl FpFlags.or .none

namespace State

/-- What a step of a peal's data flow needs: the group, the peal, its first PEAL_START and this gateway's site rank. -/
def flow (s : State) (p gid n : Nat) : Option (GroupDef × Peal × PealStart × Nat) := do
  let g ← s.group p gid
  let pl ← s.peal p gid n
  let f ← pl.first
  let me ← s.localSite p g.defn
  pure (g.defn, pl, f.1, me)

/-- Work joins a peal's list, and what can start starts (R170). -/
def addWork (s : State) (p : Nat) (g : GroupDef) (n : Nat) (ws : List PealWork) : State :=
  (s.updPeal p g.group n (fun x => { x with todo := x.todo ++ ws })).pump p g.slice 64

/-! ### Messages (R157, R158) -/

/-- The status of a peal whose message a stream cannot take (R160, R324). -/
def sendStatus (st : Status) : Status := if st == .keyErased || st == .keyExhausted || st == .entropyFail then st else .streamFailed

/-- A message of a chunk's flow to a site rank, in parts of whole member chunks of `unit` octets; a stream that cannot take it
fails the peal (R158, R160, R324). -/
def tell (s : State) (p gid n k kind c total unit : Nat) (payload : Octets) : State :=
  let room := 1048576 - 32
  let step := if payload.length ≤ room then max 1 payload.length else room / unit * unit
  (List.range (max 1 (ceilDiv payload.length step))).foldl (fun s i =>
    match s.group p gid, s.peal p gid n with
    | some g, some pl =>
      match s.sendMsg p g.defn pl k kind 0 c total (step * i) (slice (step * i) step payload) with
      | .ok t => t
      | .error st => s.failPeal p gid n (sendStatus st) none
    | _, _ => s) s

/-! ### Results (R151, R160, R162) -/

/-- Writes of a chunk's result to the local members that take some of it; a member that takes none needs none (R151). -/
def addWrites (s : State) (p gid n c : Nat) (ranks : List Nat) : State :=
  match s.flow p gid n with
  | none => s
  | some (g, pl, b, me) =>
    let ch := chunkOf pl c
    let res := match ch.expanded with
      | some v => [(0, v.map some)]
      | none => ch.result.getD []
    let takes := ranks.filter (fun r => !(writeRuns g b c (globalRank g me r) 0 res).isEmpty)
    let s := s.updChunk p gid n c (fun x => { x with written := x.written ++ ranks, writing := x.writing ++ takes })
    s.addWork p g n (takes.map (fun r => .write c r))

/-- Every chunk has its result, every write has ended: DONE (R160). The final status is POISONED_NAN after a trap here,
OVERFLOW after a saturation here, OK otherwise (R160, R187, R193). -/
def checkDone (s : State) (p gid n : Nat) : State :=
  match s.flow p gid n with
  | none => s
  | some (g, pl, b, _) =>
    let ready := fun (ch : PealChunk) => ch.result.isSome && ch.writing.isEmpty && (!(hasProj g) || ch.expanded.isSome)
    if pl.chunks.countP ready == chunkCount b.count then
      s.endPeal p gid n (if pl.poisoned then .poisonedNan else if pl.saturated then .overflow else .ok) false
    else s

/-! ### Projection (R169, R224, R225) -/

/-- A staging slot of a cluster that no projection invocation uses (R224). -/
def freeStage (s : State) (c : Nat) : Option Nat :=
  ([0, 1, 2, 3]).find? (fun k => !(s.invs.any (fun v => v.cluster == c && (match v.purpose with
    | .projection _ _ _ _ slot => slot == k
    | _ => false))))

/-- A projection fails its peal with HANG_RESTART, and is counted (R225). -/
def projFails (s : State) (p gid n : Nat) (count : Bool) : State :=
  (if count then s.bumpPart p 3 else s).failPeal p gid n .hangRestart none

/-- A projection invocation is started for a chunk when a staging slot is free: role 0 on the local result, role 1 on the site
level's result in the input format (R224). -/
def project (s : State) (p gid n c role : Nat) : State :=
  match s.flow p gid n with
  | none => s
  | some (g, pl, b, _) =>
    let ch := chunkOf pl c
    let input := if role == 0 then ch.projIn.getD []
      else (lookupD 0 [] (ch.result.getD [])).map (fun v =>
        if b.outFmt == b.inFmt then v.getD 0
        else if b.inFmt.isInt then fmtOfIntSat b.inFmt (fmtToInt b.outFmt (v.getD 0))
        else (roundNum b.inFmt b.strict (decodeNum b.outFmt (v.getD 0))).bits)
    let cap := if role == 0 then input.length else chunkLen b.count c
    match s.prog p g.proj with
    | none => s.projFails p gid n true
    | some img =>
      match s.pickCluster img.clusters with
      | none => s.projFails p gid n true
      | some k =>
        match s.freeStage k with
        | none => s
        | some slot =>
          let a := 0x7E0000 + 0x8000 * slot
          let x := elemBytes b.inFmt input
          if !(s.access p .scratch k a x.length .write) then s.projFails p gid n true
          else
            let s := s.writeLocal .scratch k a x
            let s := s.updChunk p gid n c (fun y => { y with projRole := some role })
            s.acceptInv p img k ([role, gid + b.inFmt.code * 65536, n, c, a, input.length, a + 0x4000, cap].map (BitVec.ofNat 64))
              (.projection gid n c role slot) false 0 0

/-- Chunks of a partition's peals that wait for a staging slot (R224). -/
def projWaiting (s : State) (p : Nat) : List (Nat × Nat × Nat × Nat) :=
  (s.groups.filter (fun g => g.part == p && hasProj g.defn)).flatMap (fun g => g.peals.flatMap (fun pl => pl.chunks.filterMap (fun ch =>
    if ch.projRole.isSome then none
    else if ch.projIn.isSome && ch.projected.isNone then some (g.defn.group, pl.number, ch.number, 0)
    else if ch.result.isSome && ch.expanded.isNone then some (g.defn.group, pl.number, ch.number, 1)
    else none)))

/-! ### The result of a chunk -/

/-- A chunk's result is computed or has come: RESULT_DOWN to the children, the first of them makes the peal DELIVERING, and the
local destinations are written (R157, R160, R162). -/
def deliver (s : State) (p gid n c : Nat) (res : List (Nat × List (Option Nat))) : State :=
  match s.flow p gid n with
  | none => s
  | some (g, pl, b, me) =>
    let s := s.updChunk p gid n c (fun x => { x with result := some res })
    let s := s.updPeal p gid n (fun x => { x with state := if x.state == .reducing then .delivering else x.state })
    let ch := chunkOf pl c
    let s := (childRanks (siteCount g) (chunkTree c) me).foldl (fun s k =>
      let vs := (downKeys g b ch k).map (fun q => ((lookupD q.1 [] res).getD q.2 none).getD 0)
      s.tell p gid n k 4 c pl.total (chunkLen b.count c * b.outFmt.size) (netBytes b.outFmt vs)) s
    if hasProj g then s.project p gid n c 1
    else (s.addWrites p gid n c (pl.members.map PealMember.rank)).checkDone p gid n

/-! ### The exponent pass (R160, R180, R181) -/

/-- All chunks have their agreed octets: REDUCING, or DELIVERING where a result is there already (R160). -/
def checkAgreed (s : State) (p gid n : Nat) : State :=
  match s.flow p gid n with
  | none => s
  | some (_, pl, b, _) =>
    if pl.state == .agreeing && pl.chunks.countP (fun ch => ch.agreed.isSome) == chunkCount b.count then
      s.updPeal p gid n (fun x => { x with state := if x.chunks.any (fun ch => ch.result.isSome) then .delivering else .reducing })
    else s

/-- The agreed octets of a chunk are computed or have come: EXPONENT_DOWN to the children, and the sum pass of the chunk
begins (R160). -/
def agree (s : State) (p gid n c total : Nat) (octs : List Nat) : State :=
  match s.flow p gid n with
  | none => s
  | some (g, pl, b, me) =>
    let s := s.updChunk p gid n c (fun x => { x with agreed := some octs, expUpSent := true })
    let s := s.updPeal p gid n (fun x => { x with total := total })
    let s := (childRanks (siteCount g) (chunkTree c) me).foldl (fun s k =>
      s.tell p gid n k 2 c total 1 (octs.map (BitVec.ofNat 8))) s
    let s := s.checkAgreed p gid n
    if hasProj g then s else s.addWork p g n ((readersOf g b me pl).map (fun r => .read c r false))

/-- The exponent pass of a chunk goes up once its own octets and its children's are in (R160, R164). -/
def exponentStep (s : State) (p gid n c : Nat) : State :=
  match s.flow p gid n with
  | none => s
  | some (g, pl, b, me) =>
    let ch := chunkOf pl c
    let readers := readersOf g b me pl
    let localIn := allIn readers ch.expLocal
    if !(exactPeal g b) || pl.cut.isNone || ch.expUpSent then s
    else if hasProj g && ch.localOct.isNone then
      if localIn then
        (s.updChunk p gid n c (fun x => { x with localOct := some x.octets })).addWork p g n (readers.map (fun r => .read c r false))
      else s
    else
      let own : Option (List Nat) := if hasProj g then ch.projected.map (chunkOctets b.strict b.inFmt (groupP g))
        else if localIn then some ch.octets else none
      let t := chunkTree c
      let kids := childRanks (siteCount g) t me
      match own with
      | none => s
      | some o =>
        if !(allIn kids (ch.expChildren.map Prod.fst)) then s
        else
          let octs := maxOctets (ceilDiv (siteLen g b ch) 64) (o :: ch.expChildren.map (fun x => x.2.2))
          let total := (pl.cut.getD []).length + (ch.expChildren.map (fun x => x.2.1)).sum
          match parentRank (siteCount g) t me with
          | none => s.agree p gid n c total octs
          | some k =>
            (s.updChunk p gid n c (fun x => { x with expUpSent := true })).tell p gid n k 1 c total 1 (octs.map (BitVec.ofNat 8))

/-! ### The sum pass (R160, R178, R182) -/

/-- A peal takes the flags of elements, and the lowest trap among them with its index in the vector (R177, R191). -/
def noteElems (s : State) (p gid n c : Nat) (flags : FpFlags) (traps : List (Option Nat)) : State :=
  let s := s.updPeal p gid n (fun x => { x with flags := x.flags.or flags })
  match firstTrap traps with
  | some (i, cause) => s.trapPeal p gid n (4096 * c + i) cause
  | none => s

/-- As noteElems, where another failure reaches the peal in the same command: the peal takes it, as POISONED_NAN stands after it in
R160, and the trap is recorded, and halts the partition where its policy says so, all the same (R194). -/
def noteFailing (s : State) (p gid n c : Nat) (flags : FpFlags) (traps : List (Option Nat)) (fail : Option Status) : State :=
  match fail with
  | none => s.noteElems p gid n c flags traps
  | some st =>
    if s.haltsOnNan p then
      let t := (s.updPeal p gid n (fun x => { x with flags := x.flags.or flags }))
      match firstTrap traps, s.group p gid with
      | some (i, cause), some g =>
        ((t.writeTrap p 1 cause gid n (4096 * c + i) 1 g.defn.slice s.quartz.secs s.quartz.ns).failPeal p gid n st none).haltPart p
      | _, _ => t.failPeal p gid n st none
    else (s.noteElems p gid n c flags traps).failPeal p gid n st none

/-- The status with which a message to one of these site ranks would fail the peal (R160, R324). -/
def sendFails (s : State) (p : Nat) (g : GroupDef) (pl : Peal) (ks : List Nat) : Option Status :=
  ks.findSome? (fun k => match s.sendMsg p g pl k 3 0 0 0 0 [] with
    | .ok _ => none
    | .error st => some (sendStatus st))

/-- Adder cycles of a chunk on its slice (R171, R176, R455). -/
def adderCycles (s : State) (g : GroupDef) (b : PealStart) (adds : Nat) : Nat :=
  let rate := if exactPeal g b || b.inFmt.isInt then 2048 else 1024
  let lanes := max 1 (rate * (64 - (s.sliceOf g.slice).faulty.length) / 64)
  ceilDiv adds lanes * (if b.strict then 4 else 1)

/-- The value of a chunk's subtree is ready at a reduce kind: it goes up, or at the root becomes the result after the quorum
test (R160, R164). -/
def reduceUp (s : State) (p gid n c : Nat) (own : List Elem) : State :=
  match s.flow p gid n with
  | none => s
  | some (g, pl, b, me) =>
    let ch := chunkOf pl c
    let t := chunkTree c
    let es := siteValue g b me ch own
    let kids := childRanks (siteCount g) t me
    let total := (pl.cut.getD []).length + (ch.children.map (fun x => x.2.1)).sum
    let s := s.bumpBy (.adderCycles g.slice) (s.adderCycles g b (es.length * ((pl.cut.getD []).length + kids.length)))
    let s := s.updChunk p gid n c (fun x => { x with upSent := true })
    let up := parentRank (siteCount g) t me
    let short := up.isNone && g.policy == 2 && exactPeal g b && decide (total < g.quorumMin)
    let fail := if short then some .memberMissing else s.sendFails p g pl (up.elim kids (fun k => [k]))
    let s := s.noteFailing p gid n c (allFlags (es.map Elem.flags)) (es.map Elem.trap) fail
    match up with
    | some k => s.tell p gid n k 3 c total 1 (es.flatMap (partialBytes (exactPeal g b) b.inFmt g.w))
    | none =>
      if fail.isSome then s
      else
        let rs := resultElems g b b.outFmt (ch.agreed.getD []) es
        let s := s.noteElems p gid n c (allFlags (rs.map Result.flags)) (rs.map Result.trap)
        let s := s.updPeal p gid n (fun x => { x with total := total, saturated := x.saturated || rs.any Result.sat })
        s.deliver p gid n c [(0, rs.map (fun r => some r.bits))]

/-- The local result of a projected chunk, converted once to the input format, goes to role 0 (R169, R224). -/
def projectOwn (s : State) (p gid n c : Nat) : State :=
  match s.flow p gid n with
  | none => s
  | some (g, pl, b, _) =>
    let ch := chunkOf pl c
    let es := localValue g b (chunkTree c) ch.locals (chunkLen b.count c)
    let rs := resultElems g b b.inFmt (ch.localOct.getD []) es
    let s := s.noteElems p gid n c (allFlags (rs.map Result.flags)) (rs.map Result.trap)
    let s := s.updChunk p gid n c (fun x => { x with projIn := some (rs.map Result.bits) })
    s.project p gid n c 0

/-- A copying kind's chunk goes up, or at the root becomes the result (R157, R190). -/
def copyUp (s : State) (p gid n c : Nat) : State :=
  match s.flow p gid n with
  | none => s
  | some (g, pl, b, me) =>
    let ch := chunkOf pl c
    let t := chunkTree c
    let total := (pl.cut.getD []).length + (ch.children.map (fun x => x.2.1)).sum
    let s := s.updChunk p gid n c (fun x => { x with upSent := true })
    match parentRank (siteCount g) t me with
    | some k =>
      let keys := if b.kind == .allGather then subtreeMembers g t me
        else if (subtreeMembers g t me).contains b.root then [0] else []
      s.tell p gid n k 3 c total (chunkLen b.count c * b.outFmt.size) (keys.flatMap (fun q => netBytes b.outFmt (lookupD q [] ch.copies)))
    | none =>
      let keys := if b.kind == .allGather then List.range (groupSize g) else [0]
      (s.updPeal p gid n (fun x => { x with total := total })).deliver p gid n c
        (keys.map (fun q => (q, (lookupD q [] ch.copies).map some)))

/-- The sum or only pass of a chunk goes up once its own value and its children's are in (R160). -/
def valueStep (s : State) (p gid n c : Nat) : State :=
  match s.flow p gid n with
  | none => s
  | some (g, pl, b, me) =>
    let ch := chunkOf pl c
    let kidsIn := allIn (childRanks (siteCount g) (chunkTree c) me) ch.childrenDone
    let localIn := allIn (readersOf g b me pl) (ch.locals.map Prod.fst)
    if pl.cut.isNone || ch.upSent then s
    else if !(isReduce b.kind) then
      if kidsIn && allIn ((readersOf g b me pl).map (fun r => if b.kind == .allGather then globalRank g me r else 0)) (ch.copies.map Prod.fst)
      then s.copyUp p gid n c else s
    else if hasProj g then
      match ch.projected with
      | none => if ch.projIn.isNone && localIn && (!(exactPeal g b) || ch.localOct.isSome) then s.projectOwn p gid n c else s
      | some v =>
        if kidsIn && (!(exactPeal g b) || ch.agreed.isSome) then s.reduceUp p gid n c (readElems g b (ch.agreed.getD []) v) else s
    else if kidsIn && localIn && (!(exactPeal g b) || ch.agreed.isSome) then
      s.reduceUp p gid n c (localValue g b (chunkTree c) ch.locals (chunkLen b.count c))
    else s

/-- A chunk moves on as far as its inputs allow (R160). -/
def advance (s : State) (p gid n c : Nat) : State :=
  if (s.peal p gid n).any (fun pl => (chunkOf pl c).lost) then s else (s.exponentStep p gid n c).valueStep p gid n c

/-! ### Start of the flow -/

/-- Messages that waited for the peal's form are handed on again. -/
def handEarly (s : State) (p gid n : Nat) : State :=
  match s.peal p gid n with
  | none => s
  | some pl => pl.early.foldl State.hand (s.updPeal p gid n (fun x => { x with early := [] }))

/-- The local contributor set is fixed, and the peal leaves OPEN: AGREEING in exact mode with a reduce kind, REDUCING otherwise
(R160, R164). -/
def startPeal (s : State) (p gid n : Nat) : State :=
  match s.flow p gid n with
  | none => s
  | some (g, pl, b, me) =>
    let pl' := { pl with cut := some (pl.members.map PealMember.rank), state := if exactPeal g b then .agreeing else .reducing }
    let s := s.updPeal p gid n (fun _ => pl')
    let cs := List.range (chunkCount b.count)
    let s := s.addWork p g n (cs.flatMap (fun c => (readersOf g b me pl').map (fun r => .read c r (exactPeal g b))))
    cs.foldl (fun s c => s.advance p gid n c) (s.handEarly p gid n)

/-! ### Reads -/

/-- A local contribution of the exponent pass is in (R166, R180). -/
def gotExponents (s : State) (p gid n c r : Nat) (data : Octets) : State :=
  match s.flow p gid n with
  | none => s
  | some (g, pl, b, _) =>
    if (chunkOf pl c).expLocal.contains r then s.bumpPart p 13
    else
      let vs := elemsOf b.inFmt (chunkLen b.count c) data
      let o := chunkOctets b.strict b.inFmt (groupP g) vs
      let s := s.updChunk p gid n c (fun x => { x with expLocal := x.expLocal ++ [r], octets := maxOctets o.length [x.octets, o] })
      (s.noteElems p gid n c .none (vs.map (exponentTrap b.strict b.inFmt))).advance p gid n c

/-- A local contribution of the sum or only pass is in (R155, R166, R190). -/
def gotValues (s : State) (p gid n c r : Nat) (data : Octets) : State :=
  match s.flow p gid n with
  | none => s
  | some (g, pl, b, me) =>
    let ch := chunkOf pl c
    let vs := elemsOf b.inFmt (chunkLen b.count c) data
    if isReduce b.kind then
      if (ch.locals.map Prod.fst).contains r then s.bumpPart p 13
      else
        let es := readElems g b ((if hasProj g then ch.localOct else ch.agreed).getD []) vs
        let s := s.updChunk p gid n c (fun x => { x with locals := x.locals ++ [(r, es)] })
        (s.noteElems p gid n c .none (es.map Elem.trap)).advance p gid n c
    else
      let key := if b.kind == .allGather then globalRank g me r else 0
      if (ch.copies.map Prod.fst).contains key then s.bumpPart p 13
      else
        let rs := vs.map (copyElem b.strict b.inFmt b.outFmt)
        let s := s.updChunk p gid n c (fun x => { x with copies := x.copies ++ [(key, rs.map Result.bits)] })
        (s.noteElems p gid n c .none (rs.map Result.trap)).advance p gid n c

end State

end Sys2Proof.Machine
end

