-- ==== Sys2Proof/Machine/Carillon.lean ====
section
/-! DEFINITION. Carillon's commands: groups, peals, messages from other gateways, and their deadlines (R144, R145, R150 to
R168, R224, R225). -/

namespace Sys2Proof.Machine

/-- The input and output formats of a peal fit (R150, R151). -/
def formatsOk (i o : Fmt) : Bool :=
  i.code ≤ 7 && o.code ≤ 7 && (o == i || (o == .fp32 && !i.isInt) || (o == .int32 && i == .int8))

/-- The limit of R179 and R186 on the size of a group with integer inputs. -/
def intLimitOk (g : GroupDef) (f : Fmt) : Bool :=
  !f.isInt || decide (groupSize g ≤ 2 ^ ((if g.mode == 2 then g.w else 48) - (if f == .int8 then 8 else 32)))

/-- Elements of a member's destination (R151). -/
def dstCount (g : GroupDef) (b : PealStart) : Nat :=
  match b.kind with
  | .reduceScatter => b.count / groupSize g
  | .allGather => groupSize g * b.count
  | _ => b.count

/-- Two PEAL_STARTs of one peal agree: kind, formats, mode, count, root, and the stream base of a group of several sites
(R150, R152). -/
def sameStart (g : GroupDef) (a b : PealStart) (baseA baseB : Nat) : Bool :=
  a.kind == b.kind && a.inFmt == b.inFmt && a.outFmt == b.outFmt && a.strict == b.strict && a.count == b.count && a.root == b.root &&
    (siteCount g == 1 || baseA == baseB)

/-- A kind with a root member. -/
def isRooted (k : PealKind) : Bool := k == .reduce || k == .broadcast

/-- The bitmap of a PEAL_STATUS: bit i of octet j is local rank first + 8j + i (R167). -/
def statusBitmap (started : List Nat) (first bits : Nat) : Octets :=
  (List.range (bits / 8)).map (fun j => BitVec.ofNat 8 (((List.range 8).map (fun i => if started.contains (first + 8 * j + i) then
    2 ^ i else 0)).sum))

namespace State

/-! ### PEAL_START (R152) -/

/-- What a PEAL_START's own fields break (R150, R151, R152). -/
def pealFormBad (b : PealStart) : Bool :=
  decide (b.count = 0) || decide (268435456 < b.count) || !(formatsOk b.inFmt b.outFmt) || decide (4096 ≤ b.group) ||
    (!(isRooted b.kind) && decide (b.root ≠ 0)) ||
    decide (b.coord.length ≠ 6) || decide (16384 ≤ b.sync)

/-- What needs the group's definition (R127, R141, R143, R150 to R153). -/
def pealGroupBad (s : State) (p : Nat) (g : Group) (b : PealStart) (base : Nat) : Bool :=
  let d := g.defn
  let pl := g.peals.find? (fun x => x.number == b.peal)
  let retained := g.retained.any (fun r => r.number == b.peal)
  let off := serialDiff 32 b.peal g.base
  s.siteRemote (siteOf b.src) || s.siteRemote (siteOf b.dst) || (s.localSite p d).isNone || !(isMember d b.coord) ||
    s.localSite p d != some (siteRank d b.coord) ||
    (isRooted b.kind && decide (groupSize d ≤ b.root)) || (b.kind == .reduceScatter && decide (b.count % groupSize d ≠ 0)) ||
    (hasProj d && b.kind != .allReduce) ||
    (pl.bind Peal.first).any (fun f => !(sameStart d b f.1 base f.2.1)) ||
    pl.any (fun x => x.members.any (fun m => m.rank == localRank d b.coord)) ||
    (pl.isNone && !retained && !(inWindow g b.peal) && !(decide (4 ≤ off) && decide (off < 2 ^ 31)))

/-- The stream to a remote site of the group is not held or leads elsewhere (R152). -/
def pealStreamsBad (s : State) (p : Nat) (d : GroupDef) (base : Nat) : Bool :=
  (List.range (siteCount d)).any (fun k => s.localSite p d != some k &&
    !(decide (base + k < 2 ^ 20) && s.holdsStream p (base + k) && s.leadsTo (base + k) (siteOfRank d k)))

/-- A retired slice that has left the partition's resources, from its step boundary on; until then the partition uses the slice as
before (R29; log entry 12). -/
def sliceLost (s : State) (p k : Nat) : Bool := (s.part p).lostSlices.contains k

/-- The statuses of a PEAL_START in order (R127, R152, R179, R186). -/
def pealCheck (s : State) (p base : Nat) (b : PealStart) : Option (Status × Octets) :=
  match s.group p b.group with
  | none => some (.notPermitted, [])
  | some g =>
    let d := g.defn
    if !(((s.conf.partOf p).map (fun r => r.hasGroup b.group)).getD false) then some (.notPermitted, [])
    else if s.pealGroupBad p g b base then some (.badDescriptor, [])
    else if (s.channels p d.slice).isEmpty || s.weightOn p d.slice == 0 || s.sliceLost p d.slice || (b.addSync && (s.syncCheck p b.sync).isSome) ||
        s.pealStreamsBad p d base then some (.notPermitted, [])
    else if s.windowsWait p then none
    else if ((b.kind != .broadcast || rankOf d b.coord == b.root) && !(s.access p .global 0 b.src (b.count * b.inFmt.size) .read)) ||
        !(s.access p .global 0 b.dst (dstCount d b * b.outFmt.size) .write) then some (.segmentFault, [])
    else if decide (4 ≤ serialDiff 32 b.peal g.base) && decide (serialDiff 32 b.peal g.base < 2 ^ 31) then some (.quota, [])
    else if !(intLimitOk d b.inFmt) then some (.overflow, [])
    else none

/-- A peal is created where its number is not open (R150). -/
def openPeal (s : State) (p gid n : Nat) : State :=
  if (s.peal p gid n).isSome then s else s.updGroup p gid (fun g => { g with peals := g.peals ++ [.fresh n] })

/-- The status of a failed stream among those to the peal's neighbours (R324). -/
def failedNeighbour (s : State) (p : Nat) (d : GroupDef) (base : Nat) : Option Status :=
  match s.localSite p d with
  | none => none
  | some me => (allNeighbours (siteCount d) me).findSome? (fun k =>
      match (s.ctx (origKey (base + k))).map Ctx.state with
      | some (.failed st) => some st
      | _ => none)

/-- A member of a peal, which is created where it is not open (R150). -/
def addMember (s : State) (p id : Nat) (h : DescHdr) (b : PealStart) (d : GroupDef) : State :=
  let m : PealMember := { rank := localRank d b.coord, desc := id, coord := b.coord, src := b.src, dst := b.dst, addSync := b.addSync,
                          sync := b.sync, syncAmount := b.syncAmount, cls := h.cls }
  (s.openPeal p b.group b.peal).updPeal p b.group b.peal (fun x =>
    { x with members := x.members ++ [m], first := if x.first.isSome then x.first else some (b, h.stream, h.cls) })

/-- A member joins its peal, which starts when every local member has; a member after the cut has the results that are known
written (R150, R160, R164, R324). -/
def joinPeal (s : State) (p id : Nat) (h : DescHdr) (b : PealStart) : State :=
  match s.group p b.group with
  | none => s.complete id .notPermitted []
  | some g =>
    let d := g.defn
    let s := s.addMember p id h b d
    match s.peal p b.group b.peal with
    | none => s
    | some pl =>
      let s := if pl.cut.isSome then
          (pl.chunks.filter (fun ch => ch.result.isSome && (!(hasProj d) || ch.expanded.isSome))).foldl
            (fun s ch => s.addWrites p b.group b.peal ch.number [localRank d b.coord]) s
        else if pl.members.length == localCount d then s.startPeal p b.group b.peal
        else s
      match s.failedNeighbour p d h.stream with
      | some st => s.failPeal p b.group b.peal st none
      | none => s

/-- An accepted PEAL_START: answered from a retained peal, held by a slice that accepts no new peal or by windows that wait, or
joined to its peal (R29, R50, R153). -/
def runPeal (s : State) (p id : Nat) (h : DescHdr) (b : PealStart) : State :=
  match s.group p b.group with
  | none => s.complete id .notPermitted []
  | some g =>
    let isOpen := g.peals.any (fun x => x.number == b.peal)
    match (if isOpen then none else g.retained.find? (fun r => r.number == b.peal)) with
    | some r => s.complete id (if r.status == .ok then .memberMissing else r.status)
        (pealBody b.peal (if r.failed then 6 else 5) r.contributors)
    | none =>
      if (!isOpen && (s.sliceOf g.defn.slice).closed) || s.windowsWait p then s.updDesc id (fun d => { d with hold := .later })
      else s.joinPeal p id h b

/-- The PEAL_STARTs of a peal that wait for its slice: number, header and body. -/
def startsWaiting (s : State) (p gid n : Nat) : List (Nat × DescHdr × PealStart) :=
  s.descs.filterMap (fun d => match d.cmd with
    | .pealStart h b => if d.part == p && d.hold == .later && b.group == gid && b.peal == n then some (d.id, h, b) else none
    | _ => none)

/-- The deadline of a peal whose PEAL_STARTs still wait for their slice has passed, as the wait counts toward it: no member has started,
and the peal fails (R29, R160; log entry 12). -/
def failWaiting (s : State) (p gid n : Nat) : State :=
  match s.group p gid, s.startsWaiting p gid n with
  | some g, d :: l => ((d :: l).foldl (fun s x => s.addMember p x.1 x.2.1 x.2.2 g.defn) s).failPeal p gid n .memberMissing none
  | _, _ => s

/-! ### PEAL_STATUS (R167) -/

/-- The statuses of a PEAL_STATUS (R167). -/
def statusCheck (s : State) (p : Nat) (q : PealQuery) : Option (Status × Octets) :=
  match s.group p q.group with
  | none => some (.notPermitted, [])
  | some g =>
    if !(((s.conf.partOf p).map (fun r => r.hasGroup q.group)).getD false) then some (.notPermitted, [])
    else if localCount g.defn < q.firstRank + q.bits then some (.badDescriptor, [])
    else none

/-- The completion body of a PEAL_STATUS (R167). -/
def statusBody (s : State) (p : Nat) (q : PealQuery) : Octets :=
  let mk' := fun (st code total locals : Nat) (started : List Nat) =>
    beBytes 1 st ++ beBytes 1 code ++ zeros 2 ++ beBytes 4 total ++ beBytes 4 locals ++ beBytes 4 started.length ++
      statusBitmap started q.firstRank q.bits
  match s.group p q.group with
  | none => []
  | some g =>
    let l := localCount g.defn
    match g.peals.find? (fun x => x.number == q.peal), g.retained.find? (fun r => r.number == q.peal) with
    | some pl, _ => mk' (pealStateCode pl.state) 1 pl.total l (pl.members.map PealMember.rank)
    | none, some r => mk' (if r.failed then 6 else 5) (statusCode r.status) r.contributors l r.started
    | none, none => mk' 0 0 0 l []

/-! ### Groups (R144, R145) -/

/-- A breach of R143, which needs no held resource, has the body of BAD_DESCRIPTOR (R127, R144). -/
def defineForm (s : State) (p : Nat) (g : GroupDef) : Option Octets := if (s.localSite p g).isNone then some [] else none

/-- The statuses of a GROUP_DEFINE that need what the partition holds, in order (R127, R144). -/
def defineCheck (s : State) (p : Nat) (g : GroupDef) : Option (Status × Octets) :=
  if !(((s.conf.partOf p).map (fun x => x.hasGroup g.group)).getD false) || s.weightOn p g.slice == 0 ||
      s.sliceLost p g.slice then some (.notPermitted, [])
  else if !(headroomOk g) then some (.overflow, [])
  else none

/-- A group defined at once, or staged where its ID is defined (R144). -/
def define (s : State) (p id : Nat) (g : GroupDef) : State :=
  if (s.group p g.group).isNone then ({ s with groups := s.groups ++ [Group.fresh p g false] }).complete id .ok []
  else (s.updGroup p g.group (fun x => { x with staged := some (some g) })).complete id .pending []

/-- Group admission at a step boundary (R27, R144, R145): staged definitions and removals take effect, open peals of those
groups fail with MEMBER_MISSING, and what is staged for an ID no longer held is dropped. -/
def admitGroups (s : State) (p : Nat) : State :=
  ((s.groups.filter (fun g => g.part == p && g.staged.isSome)).map (fun g => g.defn.group)).foldl (fun s gid =>
    match s.group p gid with
    | none => s
    | some g =>
      if !(((s.conf.partOf p).map (fun r => r.hasGroup gid)).getD false) then s.updGroup p gid (fun x => { x with staged := none })
      else
        let s := s.failList p (s.openPeals p gid) .memberMissing
        match g.staged with
        | some (some d) => s.updGroup p gid (fun x => { x with defn := d, staged := none, fromRecord := false })
        | _ => { s with groups := s.groups.filter (fun x => !(x.part == p && x.defn.group == gid)) }) s

/-- A group goes at a reload, with its peals: MEMBER_MISSING for those open. A definition staged for it, whose ID the partition still
holds, takes effect on the ID that is free now (R27, R144, R145; log entry 12). -/
def dropGroup (s : State) (p gid : Nat) (held : Bool) : State :=
  match s.group p gid with
  | none => s
  | some g =>
    let s := s.failList p (s.openPeals p gid) .memberMissing
    let anew := match g.staged with
      | some (some d) => if held then [Group.fresh p d false] else []
      | _ => []
    { s with groups := s.groups.filter (fun x => !(x.part == p && x.defn.group == gid)) ++ anew }

/-! ### Messages from other gateways (R157 to R159) -/

/-- A message is dropped and counted (R159). -/
def dropMsg (s : State) (p : Nat) : State := s.bumpPart p 12

/-- The tests of R159 on a message: its group, or none when it is dropped. `isAbort` tells an ABORT. -/
def msgGroup (s : State) (p : Nat) (m : CarMsg) (isAbort : Bool) : Option Group := do
  let g ← s.group p m.group
  let me ← s.localSite p g.defn
  let n := siteCount g.defn
  let near := if isAbort then allNeighbours n me else treeNeighbours n (chunkTree m.chunk) me
  if fingerprint g.defn == m.fingerprint && m.length == m.payload.length && near.contains m.sender then pure g else none

/-- A message joins its peal, which is created where it is not open (R159). -/
def noteMsg (s : State) (p : Nat) (m : CarMsg) : State :=
  (s.openPeal p m.group m.peal).updPeal p m.group m.peal (fun x => { x with incoming := (x.incoming ++ [(m.stream, m.site)]).eraseDups })

/-- What becomes of a message of the data flow that passes R159: its peal is open, or created, or it waits while the group's slice
accepts no new peal (R29, R159; log entry 12). None when it is dropped. -/
def msgPeal (s : State) (p : Nat) (m : CarMsg) : Option (State ⊕ Nat) := do
  let g ← s.msgGroup p m false
  let isOpen := g.peals.any (fun x => x.number == m.peal)
  if isOpen || (inWindow g m.peal && !(g.retained.any (fun r => r.number == m.peal))) then
    pure (if !isOpen && (s.sliceOf g.defn.slice).closed then .inr g.defn.slice else .inl (s.noteMsg p m))
  else none

/-- A message waits in its peal for what it needs here: the peal's form, the local cut, or the projected length of its chunk. The spec
does not say where it waits (R150, R225; log entry 12). -/
def waits? (s : State) (p : Nat) (m : CarMsg) : Bool :=
  match s.flow p m.group m.peal with
  | none => true
  | some (g, pl, _, _) => pl.cut.isNone || (hasProj g && (chunkOf pl m.chunk).projected.isNone)

/-- A data-flow message: dropped, kept for later, or passed to `act`, which answers none to drop it: a chunk past the last, a
direction that does not fit the sender, exponents of a peal that is not exact, a length that is not the one expected. Those the model
drops and counts as R159 does the forms it lists (R159, R225; log entry 12). -/
def onMsg (s : State) (p : Nat) (m : CarMsg) (again : Instr) (act : State → GroupDef → Peal → PealStart → Nat → Option State) : State :=
  match s.msgPeal p m with
  | none => s.dropMsg p
  | some (.inr k) => s.updSlice k (fun x => { x with early := x.early ++ [again] })
  | some (.inl t) =>
    if t.waits? p m then t.updPeal p m.group m.peal (fun x => { x with early := x.early ++ [again] })
    else match t.flow p m.group m.peal with
      | none => t
      | some (g, pl, b, me) =>
        if chunkCount b.count ≤ m.chunk then s.dropMsg p
        else match act t g pl b me with
          | some u => u
          | none => s.dropMsg p

/-- The sender is a child, or the parent, of this gateway in the chunk's tree. -/
def isChild (g : GroupDef) (me : Nat) (m : CarMsg) : Bool := (childRanks (siteCount g) (chunkTree m.chunk) me).contains m.sender
def isParent (g : GroupDef) (me : Nat) (m : CarMsg) : Bool := parentRank (siteCount g) (chunkTree m.chunk) me == some m.sender

/-- A message from another gateway is still missing (R160, R163). -/
def missingRemote (s : State) (p gid n : Nat) : Bool :=
  match s.group p gid with
  | none => false
  | some g0 =>
    if siteCount g0.defn ≤ 1 then false
    else match s.flow p gid n with
      | none => true
      | some (g, pl, b, me) =>
        pl.cut.isNone || (List.range (chunkCount b.count)).any (fun c =>
          let ch := chunkOf pl c
          let kids := childRanks (siteCount g) (chunkTree c) me
          let up := (parentRank (siteCount g) (chunkTree c) me).isSome
          (exactPeal g b && ((up && ch.agreed.isNone) || !(allIn kids (ch.expChildren.map Prod.fst)))) ||
            (up && ch.result.isNone) || !(allIn kids ch.childrenDone))

end State

/-! ### Meanings -/

/-- PEAL_START (R150 to R156). -/
def execPealStart (h : DescHdr) (b : PealStart) (s : State) : Host.Outcome State Fault Refusal :=
  .next (s.begin h 0x01 (.pealStart h b) (State.pealFormBad b) (fun s p => s.pealCheck p h.stream b)
    (fun s p id => s.runPeal p id h b))

/-- PEAL_STATUS (R167). -/
def execPealStatus (h : DescHdr) (q : PealQuery) (s : State) : Host.Outcome State Fault Refusal :=
  .next (s.begin h 0x02 (.pealStatus h q) (decide (q.firstRank % 64 ≠ 0) || decide (q.bits % 64 ≠ 0) || decide (8192 < q.bits) ||
    decide (4096 ≤ q.group))
    (fun s p => s.statusCheck p q) (fun s p id => s.complete id .ok (s.statusBody p q)))

/-- GROUP_DEFINE (R144). -/
def execGroupDefine (h : DescHdr) (g : GroupDef) (s : State) : Host.Outcome State Fault Refusal :=
  .next (s.begin h 0x03 (.groupDefine h g) (!(groupFieldsOk g) || decide (4096 ≤ g.group)) (fun s p => s.defineCheck p g)
    (fun s p id => s.define p id g) (fun s p => s.defineForm p g))

/-- GROUP_DEFINE that stages a removal (R144). -/
def execGroupRemove (h : DescHdr) (group : Nat) (s : State) : Host.Outcome State Fault Refusal :=
  .next (s.begin h 0x03 (.groupRemove h group) (decide (4096 ≤ group))
    (fun s p =>
      if !(((s.conf.partOf p).map (fun r => r.hasGroup group)).getD false) then some (.notPermitted, [])
      else if (s.group p group).isNone then some (.badDescriptor, []) else none)
    (fun s p id => (s.updGroup p group (fun x => { x with staged := some none })).complete id .pending []))

/-- CONTRIBUTION_READ_DONE (R155, R166, R170): the read of that contribution has ended. -/
def execContributionReadDone (p : PartId) (group peal chunk : Nat) (exponentPass : Bool) (rank : Nat) (s : State) :
    Host.Outcome State Fault Refusal :=
  match s.takeXfer (.contribution p group peal chunk rank exponentPass) with
  | none => .next s
  | some (x, s) =>
    let k := ((s.group p group).map (fun g => g.defn.slice)).getD 0
    .next ((if x.status != .ok then s.failPeal p group peal .timeout none
      else if exponentPass then s.gotExponents p group peal chunk rank x.data
      else s.gotValues p group peal chunk rank x.data).pump p k 64)

/-- RESULT_WRITE_DONE (R160, R170): the write of that result has ended. -/
def execResultWriteDone (p : PartId) (group peal chunk rank : Nat) (s : State) : Host.Outcome State Fault Refusal :=
  match s.takeXfer (.result p group peal chunk rank) with
  | none => .next s
  | some (x, s) =>
    let k := ((s.group p group).map (fun g => g.defn.slice)).getD 0
    .next ((if x.status != .ok then s.failPeal p group peal .timeout none
      else (s.updChunk p group peal chunk (fun y => { y with writing := y.writing.filter (· != rank) })).checkDone p group peal).pump p k 64)

/-- EXPONENT_UP (R157, R166, R181). -/
def execExponentUp (p : PartId) (m : CarMsg) (s : State) : Host.Outcome State Fault Refusal :=
  .next (s.onMsg p m (.exponentUp p m) (fun s g pl b me =>
    let ch := chunkOf pl m.chunk
    if !(exactPeal g b) || !(State.isChild g me m) || m.offset ≠ 0 || m.length ≠ ceilDiv (siteLen g b ch) 64 then none
    else if (ch.expChildren.map Prod.fst).contains m.sender then some (s.bumpPart p 13)
    else some ((s.updChunk p m.group m.peal m.chunk (fun x =>
      { x with expChildren := x.expChildren ++ [(m.sender, m.contributors, m.payload.map BitVec.toNat)] })).advance p m.group m.peal m.chunk)))

/-- EXPONENT_DOWN (R157, R160, R181). -/
def execExponentDown (p : PartId) (m : CarMsg) (s : State) : Host.Outcome State Fault Refusal :=
  .next (s.onMsg p m (.exponentDown p m) (fun s g pl b me =>
    let ch := chunkOf pl m.chunk
    if !(exactPeal g b) || !(State.isParent g me m) || m.offset ≠ 0 || m.length ≠ ceilDiv (siteLen g b ch) 64 then none
    else if ch.agreed.isSome then some (s.bumpPart p 13)
    else some ((s.agree p m.group m.peal m.chunk m.contributors (m.payload.map BitVec.toNat)).advance p m.group m.peal m.chunk)))

/-- PARTIAL_UP (R157, R158, R166, R225). Only the copying kinds are split into parts. -/
def execPartialUp (p : PartId) (m : CarMsg) (s : State) : Host.Outcome State Fault Refusal :=
  .next (s.onMsg p m (.partialUp p m) (fun s g pl b me =>
    let ch := chunkOf pl m.chunk
    let want := upPayload g b ch m.sender
    let had := ((ch.children.find? (fun x => x.1 == m.sender)).map (fun x => x.2.2)).getD []
    if !(State.isChild g me m) then none
    else if ch.childrenDone.contains m.sender then some (s.bumpPart p 13)
    else if m.offset ≠ had.length || want < had.length + m.length || (m.length = 0 && want ≠ 0) || (isReduce b.kind && m.length ≠ want) then none
    else
      let all := had ++ m.payload
      let full := all.length == want
      let keys := if b.kind == .allGather then subtreeMembers g (chunkTree m.chunk) m.sender
        else if b.kind == .broadcast && want ≠ 0 then [0] else []
      let z := chunkLen b.count m.chunk
      let got := if full && !(isReduce b.kind) then
          keys.zipIdx.map (fun q => (q.1, netElems b.outFmt z (slice (q.2 * z * b.outFmt.size) (z * b.outFmt.size) all))) else []
      some ((s.updChunk p m.group m.peal m.chunk (fun x =>
        { x with children := x.children.filter (fun y => y.1 != m.sender) ++ [(m.sender, m.contributors, all)],
                 childrenDone := if full then x.childrenDone ++ [m.sender] else x.childrenDone,
                 copies := x.copies ++ got })).advance p m.group m.peal m.chunk)))

/-- RESULT_DOWN (R157, R158, R160, R225). -/
def execResultDown (p : PartId) (m : CarMsg) (s : State) : Host.Outcome State Fault Refusal :=
  .next (s.onMsg p m (.resultDown p m) (fun s g pl b me =>
    let ch := chunkOf pl m.chunk
    let keys := downKeys g b ch me
    let want := keys.length * b.outFmt.size
    if !(State.isParent g me m) then none
    else if ch.result.isSome then some (s.bumpPart p 13)
    else if m.offset ≠ ch.down.length || want < ch.down.length + m.length || (m.length = 0 && want ≠ 0) || (isReduce b.kind &&
      m.length ≠ want) then none
    else
      let all := ch.down ++ m.payload
      if all.length < want then some (s.updChunk p m.group m.peal m.chunk (fun x => { x with down := all }))
      else
        let vs := netElems b.outFmt keys.length all
        let n := if b.kind == .allReduce || b.kind == .reduce then siteLen g b ch else chunkLen b.count m.chunk
        let ranks := if b.kind == .allGather then List.range (groupSize g) else [0]
        let table := keys.zip vs
        let res := ranks.map (fun q =>
          (q, if b.kind == .reduceScatter then (List.range n).map (fun i => table.lookup (q, i))
              else ((vs.drop (q * n)).take n).map some))
        let s := s.updPeal p m.group m.peal (fun x => { x with total := m.contributors })
        some (s.deliver p m.group m.peal m.chunk res)))

/-- ABORT (R159 to R161): the peal fails with the status of the ABORT; one for a retained peal is dropped uncounted. -/
def execAbort (p : PartId) (m : CarMsg) (s : State) : Host.Outcome State Fault Refusal :=
  match s.msgGroup p m true with
  | none => .next (s.dropMsg p)
  | some g =>
    if g.peals.any (fun x => x.number == m.peal) then .next (s.failPeal p m.group m.peal m.status (some m.sender))
    else if g.retained.any (fun r => r.number == m.peal) then .next s
    else if inWindow g m.peal then .next ((s.noteMsg p m).failPeal p m.group m.peal m.status (some m.sender))
    else .next (s.dropMsg p)

/-- PEAL_DEADLINE (R29, R160, R163, R164): D has passed since the peal's creation, or since the first of the PEAL_STARTs that wait
for its slice. A peal that lost a partial fails (R412). -/
def execPealDeadline (p : PartId) (group peal : Nat) (s : State) : Host.Outcome State Fault Refusal :=
  match s.group p group, s.peal p group peal with
  | some g, some pl =>
    if pl.chunks.any PealChunk.lost then .next (s.failPeal p group peal .memberMissing none)
    else if pl.state != .open then .next s
    else match pl.first with
      | some (b, _, _) =>
        .next (if g.defn.policy == 2 && exactPeal g.defn b then s.startPeal p group peal else s.failPeal p group peal .memberMissing none)
      | none => .next (s.failPeal p group peal .memberMissing none)
  | some g, none => .next (if (s.sliceOf g.defn.slice).closed then s.failWaiting p group peal else s)
  | none, _ => .next s

/-- PEAL_REMOTE_DEADLINE (R160, R163): 2 × D has passed since the peal's creation. -/
def execPealRemoteDeadline (p : PartId) (group peal : Nat) (s : State) : Host.Outcome State Fault Refusal :=
  if (s.peal p group peal).any (fun pl => pl.chunks.any PealChunk.lost ||
    s.missingRemote p group peal) then .next (s.failPeal p group peal .memberMissing none) else .next s

/-- PROJECTION_DONE (R224, R225): a projection invocation has completed. -/
def execProjectionDone (invocation : Nat) (s : State) : Host.Outcome State Fault Refusal :=
  match s.inv invocation with
  | none => .next s
  | some v =>
    match v.purpose with
    | .desc _ => .next s
    | .projection gid n c role slot =>
      if v.ended.isNone || !v.cores.isEmpty then .next s
      else
        let s : State := { s with invs := s.invs.filter (fun x => x.id != invocation) }
        let m := v.exit.toNat
        let cap := (v.args.getD 7 0).toNat
        let addr := 0x7E0000 + 0x8000 * slot + 0x4000
        let size := ((fmtOfCode ((v.args.getD 1 0).toNat / 65536 % 256)).map Fmt.size).getD 1
        let ok := v.ended == some InvEnd.exit && (if role == 0 then decide (1 ≤ m) && decide (m ≤ cap) else m == cap) &&
          s.access v.part .scratch v.cluster addr (m * size) .read
        let s : State := match s.flow v.part gid n with
          -- its peal has gone: a run that failed is counted all the same
          | none => if ok || v.ended == some InvEnd.watchdog then s else s.bumpPart v.part 3
          | some (_, _, b, _) =>
            if !ok then s.projFails v.part gid n (v.ended != some InvEnd.watchdog)
            else
              let vs := elemsOf b.inFmt m (s.readLocal .scratch v.cluster addr (m * b.inFmt.size))
              if role == 0 then
                let s := s.updChunk v.part gid n c (fun x => { x with projected := some vs, projRole := none })
                (s.handEarly v.part gid n).advance v.part gid n c
              else
                let rs := vs.map (copyElem b.strict b.inFmt b.outFmt)
                let s := s.updChunk v.part gid n c (fun x => { x with expanded := some (rs.map Result.bits), projRole := none })
                let s := s.noteElems v.part gid n c (allFlags (rs.map Result.flags)) (rs.map Result.trap)
                let ranks := ((s.peal v.part gid n).map (fun x => x.members.map PealMember.rank)).getD []
                (s.addWrites v.part gid n c ranks).checkDone v.part gid n
        let s := s.swapReady v.part
        .next ((s.projWaiting v.part).foldl (fun s w => s.project v.part w.1 w.2.1 w.2.2.1 w.2.2.2) s)

end Sys2Proof.Machine
end

