-- ==== Sys2Proof/Machine/StreamOps.lean ====
section
/-! DEFINITION. What the cluster stream unit computes on windows of elements (R204, R207 to R212). -/

namespace Sys2Proof.Machine

/-- A stream window: format, count and base octet in cluster scratch (R203). -/
structure SWin where
  fmt : Fmt
  count : Nat
  base : Nat
  deriving DecidableEq, Repr, Inhabited

/-- What an instruction produced: destination elements (none leaves the element as it was), the permutation of SSORT,
SSTATUS bits, SCOUNT, flags, and the lowest source index that trapped with its cause. -/
structure StreamRes where
  out : List (Option Nat)
  perm : List Nat
  trunc : Bool
  index : Bool
  scount : Option Nat
  flags : FpFlags
  trap : Option (Nat × Nat)
  deriving DecidableEq, Repr, Inhabited

/-- A result without traps, flags or status. -/
def StreamRes.plain (out : List (Option Nat)) : StreamRes := ⟨out, [], false, false, none, .none, none⟩

/-- An operand as FP32: exact, but integers of 32 bits by R175 (R208, R210); a NaN traps (R190). -/
def fp32Operand (strict : Bool) (f : Fmt) (v : Nat) : FpRes :=
  if f.isInt then
    let r := roundFp32 strict (Num.ofInt (fmtToInt f v))
    ⟨r.1, r.2, none⟩
  else
    let x := operandNum strict f v
    if x.isNan then ⟨.nan, .none, some 1⟩ else ⟨x, .none, none⟩

/-- Sequences two results: the value of the second, the flags of both, the first trap. -/
def FpRes.after (a b : FpRes) : FpRes := ⟨b.val, a.flags.or b.flags, a.trap.orElse (fun _ => b.trap)⟩

/-- One value of a reduction with the lowest index that trapped. -/
structure Run where
  res : FpRes
  at_ : Option Nat
  deriving DecidableEq, Repr, Inhabited

/-- Adds element i to a running value: of two that trapped, the lower index stays with its cause. A trap of the lanes' own combination
has index 0, that of the result (R191, R208, R209; log entry 3). -/
def runAdd (strict : Bool) (a b : Run) (i : Nat) : Run :=
  let r := fp32Add strict a.res.val b.res.val
  let flags := (a.res.flags.or b.res.flags).or r.flags
  match a.at_, b.at_ with
  | some x, some y => if x ≤ y then ⟨⟨r.val, flags, a.res.trap⟩, some x⟩ else ⟨⟨r.val, flags, b.res.trap⟩, some y⟩
  | some x, none => ⟨⟨r.val, flags, a.res.trap⟩, some x⟩
  | none, some y => ⟨⟨r.val, flags, b.res.trap⟩, some y⟩
  | none, none => ⟨⟨r.val, flags, r.trap⟩, if r.trap.isSome then some i else none⟩

/-- Element i as the start of a running value. -/
def runOf (strict : Bool) (f : Fmt) (i v : Nat) : Run :=
  let r := fp32Operand strict f v
  ⟨r, if r.trap.isSome then some i else none⟩

/-- The 64 lanes after every element (R208). -/
def sumLanes (strict : Bool) (f : Fmt) (vs : List Nat) : List (Option Run) :=
  vs.zipIdx.foldl (fun lanes q =>
    let x := runOf strict f q.2 q.1
    lanes.modify (q.2 % 64) (fun l => match l with
      | none => some x
      | some a => some (runAdd strict a x q.2))) (List.replicate 64 none)

/-- Combines lanes in pairs, once. -/
def combinePairs (strict : Bool) : List (Option Run) → List (Option Run)
  | a :: b :: r =>
    (match a, b with
     | some x, some y => some (runAdd strict x y 0)
     | some x, none => some x
     | none, y => y) :: combinePairs strict r
  | l => l

/-- The sum of R208; the empty sum is +0. -/
def sumTree (strict : Bool) (f : Fmt) (vs : List Nat) : Run :=
  let c := combinePairs strict
  match (c (c (c (c (c (c (sumLanes strict f vs))))))).headD none with
  | some r => r
  | none => ⟨⟨.zero, .none, none⟩, none⟩

/-- The pattern that a result has in a format, with the flags of the rounding; a poisoned element of an integer format is
0 (R190). -/
def outPattern (strict : Bool) (f : Fmt) (r : FpRes) : Nat × FpFlags :=
  let x := roundNum f strict r.val
  (x.bits, r.flags.or x.flags)

/-- The trap of a run as (index, cause). -/
def Run.trapAt (r : Run) : Option (Nat × Nat) :=
  match r.at_, r.res.trap with
  | some i, some c => some (i, c)
  | _, _ => none

/-- A 64-bit two's complement integer. -/
def int64 (i : Int) : Int := signedOf 64 (unsignedOf 64 i)

/-- SSUM (R208). -/
def streamSum (strict : Bool) (inp out : Fmt) (vs : List Nat) : StreamRes :=
  if inp.isInt && out.isInt then
    .plain [some (fmtOfIntSat out (int64 (vs.map (fmtToInt inp)).sum))]
  else
    let r := sumTree strict inp vs
    let o := outPattern strict out r.res
    ⟨[some o.1], [], false, false, none, o.2, r.trapAt⟩

/-- SSCAN over floating-point values, element by element (R209). -/
def scanFp (strict : Bool) (inp out : Fmt) : Option Run → List (Nat × Nat) → StreamRes
  | _, [] => .plain []
  | acc, (v, i) :: r =>
    let x := runOf strict inp i v
    let a := match acc with
      | none => x
      | some p => runAdd strict p x i
    let o := outPattern strict out a.res
    let rest := scanFp strict inp out (some a) r
    { rest with out := some o.1 :: rest.out, flags := o.2.or rest.flags, trap := a.trapAt.orElse (fun _ => rest.trap) }

/-- SSCAN over integers. -/
def scanInt (inp out : Fmt) : Int → List Nat → List (Option Nat)
  | _, [] => []
  | a, v :: r =>
    let s := int64 (a + fmtToInt inp v)
    some (fmtOfIntSat out s) :: scanInt inp out s r

/-- SSCAN (R209). -/
def streamScan (strict : Bool) (inp out : Fmt) (vs : List Nat) : StreamRes :=
  if inp.isInt && out.isInt then .plain (scanInt inp out 0 vs) else scanFp strict inp out none vs.zipIdx

/-- The larger or the smaller of two values, with the zeros of R210. -/
def numPick (larger : Bool) (a b : Num) : Num :=
  if a.isZero && b.isZero then
    if larger then (if a.isNegZero then b else a) else (if a.isNegZero then a else b)
  else if a.lt b then (if larger then b else a) else (if larger then a else b)

/-- One element of SMAP with floating-point arithmetic (R210). -/
def mapFp (strict : Bool) (code : Nat) (sc a b : FpRes) : FpRes :=
  let two (f : Num → Num → FpRes) : FpRes :=
    if a.val.isNan || b.val.isNan then (a.after b).after ⟨.nan, .none, none⟩ else (a.after b).after (f a.val b.val)
  let one (f : Num → FpRes) : FpRes := if a.val.isNan then a else a.after (f a.val)
  let pure (x : Num) : FpRes := ⟨x, .none, none⟩
  let withSc (f : Num → Num → FpRes) : FpRes :=
    if a.val.isNan || sc.val.isNan then (sc.after a).after ⟨.nan, .none, none⟩ else (sc.after a).after (f sc.val a.val)
  match code with
  | 0x01 => two (fp32Add strict)
  | 0x02 => two (fun x y => fp32Add strict x y.neg)
  | 0x03 => two (fp32Mul strict)
  | 0x04 => two (fun x y => pure (numPick true x y))
  | 0x05 => two (fun x y => pure (numPick false x y))
  | 0x06 => one (fun x => pure x.abs)
  | 0x07 => one (fun x => pure x.neg)
  | 0x08 => withSc (fp32Mul strict)
  | 0x09 =>
    if sc.val.isNan || a.val.isNan || b.val.isNan then ((sc.after a).after b).after ⟨.nan, .none, none⟩
    else
      let m := fp32Mul strict sc.val a.val
      let s := if m.val.isNan then m else m.after (fp32Add strict m.val b.val)
      ((sc.after a).after b).after s
  | 0x0A => withSc (fun s x => pure (Num.ofInt (if s.lt x then 1 else 0)))
  | 0x0B => withSc (fun s x => pure (Num.ofInt (if x.lt s then 1 else 0)))
  | _ => a

/-- One element of SMAP with integer arithmetic (R210). -/
def mapInt (code : Nat) (a b : Int) : Int :=
  match code with
  | 0x01 => a + b
  | 0x02 => a - b
  | 0x03 => a * b
  | 0x04 => max a b
  | 0x05 => min a b
  | 0x06 => a.natAbs
  | 0x07 => -a
  | _ => a

/-- A code of SMAP reads rs2 (R210). -/
def mapUsesRs2 (code : Nat) : Bool := (1 ≤ code && code ≤ 5) || code == 9

/-- A code of SMAP reads SSCALAR (R210). -/
def mapUsesScalar (code : Nat) : Bool := 8 ≤ code && code ≤ 11

/-- One output element of SMAP: pattern, flags, trap cause. -/
def mapElem (strict : Bool) (code scalar : Nat) (f1 f2 fd : Fmt) (a b : Nat) : Nat × FpFlags × Option Nat :=
  if code == 0 && f1 == fd then (a, .none, none)
  else if f1.isInt && fd.isInt && (!mapUsesRs2 code || f2.isInt) && !mapUsesScalar code then
    (fmtOfIntSat fd (mapInt code (fmtToInt f1 a) (fmtToInt f2 b)), .none, none)
  else
    let noB : FpRes := ⟨.zero, .none, none⟩
    let r := mapFp strict code (if mapUsesScalar code then fp32Operand strict .fp32 scalar else noB)
      (fp32Operand strict f1 a) (if mapUsesRs2 code then fp32Operand strict f2 b else noB)
    let o := outPattern strict fd r
    -- a poisoned CMPGT or CMPLT element is 0, which the integer format gives it
    (o.1, o.2, r.trap)

/-- SMAP over `n` elements (R210). -/
def streamMap (strict : Bool) (code scalar : Nat) (f1 f2 fd : Fmt) (n : Nat) (as bs : List Nat) : StreamRes :=
  let es := (List.range n).map (fun i => mapElem strict code scalar f1 f2 fd (as.getD i 0) (bs.getD i 0))
  let t := es.zipIdx.findSome? (fun q => q.1.2.2.map (fun c => (q.2, c)))
  ⟨es.map (fun e => some e.1), [], false, false, none, es.foldl (fun f e => f.or e.2.1) .none, t⟩

/-- SGATHER (R212). -/
def streamGather (as idx : List Nat) (n : Nat) : StreamRes :=
  let is := idx.take n
  ⟨is.map (fun i => some (as.getD i 0)), [], false, is.any (fun i => as.length ≤ i), none, .none, none⟩

/-- SFILTER (R212): elements past the kept count stay. -/
def streamFilter (as mask : List Nat) (nd : Nat) : StreamRes :=
  let kept := (as.zip mask).filterMap (fun q => if q.2 != 0 then some q.1 else none)
  ⟨(kept.take nd).map some, [], decide (nd < kept.length), false, some kept.length, .none, none⟩

/-- The key of the total order of R211. -/
def orderKey (strict : Bool) (f : Fmt) (v : Nat) : Int :=
  if f.isInt then fmtToInt f v
  else
    let top := 2 ^ (f.expBits + f.sigBits)
    let mag := v % top
    let m := if (decodeNum f v).isNan then top else if !strict && isSubnormal f v then 0 else mag
    if v.testBit (f.expBits + f.sigBits) then -(m : Int) - 1 else m

/-- x comes strictly earlier than y (R211, R212). -/
def comesBefore (strict desc : Bool) (f : Fmt) (x y : Nat) : Bool :=
  if desc then decide (orderKey strict f y < orderKey strict f x) else decide (orderKey strict f x < orderKey strict f y)

/-- Inserts an element that stood before all of a sorted list, after every strictly earlier key. -/
def insertStable (before : Nat → Nat → Bool) (x : Nat × Nat) : List (Nat × Nat) → List (Nat × Nat)
  | [] => [x]
  | y :: r => if before y.1 x.1 then y :: insertStable before x r else x :: y :: r

/-- SSORT: a stable sort with the permutation (R212). -/
def streamSort (strict desc wantPerm : Bool) (f : Fmt) (as : List Nat) : StreamRes :=
  let s := as.zipIdx.foldr (insertStable (comesBefore strict desc f)) []
  ⟨s.map (fun q => some q.1), if wantPerm then s.map (·.2) else [], false, false, none, .none, none⟩

/-- The merge of R212; `fuel` outputs. -/
def mergeRun (before : Nat → Nat → Bool) : Nat → List Nat → List Nat → List Nat
  | 0, _, _ => []
  | n + 1, a :: r, b :: t => if before b a then b :: mergeRun before n (a :: r) t else a :: mergeRun before n r (b :: t)
  | _ + 1, [], t => t
  | _ + 1, r, [] => r

/-- SMERGE (R212). -/
def streamMerge (strict desc : Bool) (f : Fmt) (as bs : List Nat) (nd : Nat) : StreamRes :=
  let all := mergeRun (comesBefore strict desc f) (as.length + bs.length) as bs
  ⟨(all.take nd).map some, [], decide (nd < all.length), false, some all.length, .none, none⟩

end Sys2Proof.Machine
end

