-- ==== Sys2Proof/Machine/Rv64.lean ====
section
/-! DEFINITION. RV64IMAC as a Tabor core implements it (R195): decoding of 16- and 32-bit instructions, and the integer
arithmetic. The stream and system instructions of custom-0 and custom-1 are kept as raw fields (R204, R214). -/

namespace Sys2Proof.Machine

/-- Integer operations of I and M. -/
inductive AluOp where
  | add | sub | sll | slt | sltu | xor | srl | sra | or | and
  | mul | mulh | mulhsu | mulhu | div | divu | rem | remu
  deriving DecidableEq, Repr, Inhabited

/-- A decoded instruction. `w` marks the 32-bit (W) forms. -/
inductive Rv where
  | lui (rd : Nat) (imm : Int)
  | auipc (rd : Nat) (imm : Int)
  | jal (rd : Nat) (imm : Int)
  | jalr (rd rs1 : Nat) (imm : Int)
  | branch (f3 rs1 rs2 : Nat) (imm : Int)
  | load (f3 rd rs1 : Nat) (imm : Int)
  | store (f3 rs1 rs2 : Nat) (imm : Int)
  | aluImm (op : AluOp) (w : Bool) (rd rs1 : Nat) (imm : Int)
  | alu (op : AluOp) (w : Bool) (rd rs1 rs2 : Nat)
  | amo (f5 width rd rs1 rs2 : Nat)
  | csr (f3 rd rs1 addr : Nat)
  | fence
  | ecall
  | ebreak
  | wfi
  | mret
  | custom0 (f7 f3 rd rs1 rs2 : Nat)
  | custom1 (f7 f3 rd rs1 rs2 : Nat)
  | illegal
  deriving DecidableEq, Repr, Inhabited

/-- The operation of an OP or OP-IMM funct3 without the alternate bit. -/
def aluOfF3 : Nat → AluOp
  | 0 => .add
  | 1 => .sll
  | 2 => .slt
  | 3 => .sltu
  | 4 => .xor
  | 5 => .srl
  | 6 => .or
  | _ => .and

/-- The operation of an M funct3. -/
def mulOfF3 : Nat → AluOp
  | 0 => .mul
  | 1 => .mulh
  | 2 => .mulhsu
  | 3 => .mulhu
  | 4 => .div
  | 5 => .divu
  | 6 => .rem
  | _ => .remu

/-- OP and OP-32. -/
def decodeOp (w : Bool) (f7 f3 rd rs1 rs2 : Nat) : Rv :=
  if f7 == 0 then (if !w || f3 == 0 || f3 == 1 || f3 == 5 then .alu (aluOfF3 f3) w rd rs1 rs2 else .illegal)
  else if f7 == 0x20 then
    (if f3 == 0 then .alu .sub w rd rs1 rs2 else if f3 == 5 then .alu .sra w rd rs1 rs2 else .illegal)
  else if f7 == 1 then (if !w || f3 == 0 || 4 ≤ f3 then .alu (mulOfF3 f3) w rd rs1 rs2 else .illegal)
  else .illegal

/-- OP-IMM and OP-IMM-32: shifts take 6 bits of shamt, 5 in the W forms. -/
def decodeOpImm (w : Bool) (v f3 rd rs1 : Nat) : Rv :=
  let imm := signedOf 12 (bitsOf v 31 20)
  if f3 == 1 || f3 == 5 then
    let sh := if w then bitsOf v 24 20 else bitsOf v 25 20
    let hi6 := if w then bitsOf v 31 25 else bitsOf v 31 26 * 2
    if f3 == 1 && hi6 == 0 then .aluImm .sll w rd rs1 sh
    else if f3 == 5 && hi6 == 0 then .aluImm .srl w rd rs1 sh
    else if f3 == 5 && hi6 == 0x20 then .aluImm .sra w rd rs1 sh
    else .illegal
  else if w && f3 != 0 then .illegal
  else .aluImm (aluOfF3 f3) w rd rs1 imm

/-- SYSTEM. -/
def decodeSystem (v f3 rd rs1 : Nat) : Rv :=
  if f3 == 0 then
    (match v with
     | 0x00000073 => .ecall
     | 0x00100073 => .ebreak
     | 0x10500073 => .wfi
     | 0x30200073 => .mret
     | _ => .illegal)
  else if f3 == 4 then .illegal
  else .csr f3 rd rs1 (bitsOf v 31 20)

/-- AMO: LR needs rs2 = 0. -/
def decodeAmo (v f3 rd rs1 rs2 : Nat) : Rv :=
  let f5 := bitsOf v 31 27
  let ok := f5 == 0 || f5 == 1 || (f5 == 2 && rs2 == 0) || f5 == 3 || f5 == 4 || f5 == 8 || f5 == 12 || f5 == 16 || f5 == 20 ||
    f5 == 24 || f5 == 28
  if ok && (f3 == 2 || f3 == 3) then .amo f5 (if f3 == 2 then 4 else 8) rd rs1 rs2 else .illegal

/-- A 32-bit instruction. -/
def decode32 (v : Nat) : Rv :=
  let f3 := bitsOf v 14 12
  let f7 := bitsOf v 31 25
  let rd := bitsOf v 11 7
  let rs1 := bitsOf v 19 15
  let rs2 := bitsOf v 24 20
  let immI := signedOf 12 (bitsOf v 31 20)
  match v % 128 with
  | 0x37 => .lui rd (signedOf 32 (v / 4096 * 4096))
  | 0x17 => .auipc rd (signedOf 32 (v / 4096 * 4096))
  | 0x6F => .jal rd (signedOf 21 (bitsOf v 31 31 * 2 ^ 20 + bitsOf v 19 12 * 2 ^ 12 + bitsOf v 20 20 * 2 ^ 11 + bitsOf v 30 21 * 2))
  | 0x67 => if f3 == 0 then .jalr rd rs1 immI else .illegal
  | 0x63 =>
    if f3 == 2 || f3 == 3 then .illegal
    else .branch f3 rs1 rs2 (signedOf 13 (bitsOf v 31 31 * 2 ^ 12 + bitsOf v 7 7 * 2 ^ 11 + bitsOf v 30 25 * 2 ^ 5 + bitsOf v 11 8 * 2))
  | 0x03 => if f3 == 7 then .illegal else .load f3 rd rs1 immI
  | 0x23 => if 4 ≤ f3 then .illegal else .store f3 rs1 rs2 (signedOf 12 (f7 * 32 + rd))
  | 0x13 => decodeOpImm false v f3 rd rs1
  | 0x1B => decodeOpImm true v f3 rd rs1
  | 0x33 => decodeOp false f7 f3 rd rs1 rs2
  | 0x3B => decodeOp true f7 f3 rd rs1 rs2
  | 0x0F => if f3 == 0 then .fence else .illegal
  | 0x2F => decodeAmo v f3 rd rs1 rs2
  | 0x73 => decodeSystem v f3 rd rs1
  | 0x0B => .custom0 f7 f3 rd rs1 rs2
  | 0x2B => .custom1 f7 f3 rd rs1 rs2
  | _ => .illegal

/-- The quadrant-1 arithmetic of C (funct3 100). -/
def decodeCArith (v rd : Nat) (sh : Nat) (imm6 : Int) : Rv :=
  let rs2 := 8 + bitsOf v 4 2
  match bitsOf v 11 10 with
  | 0 => .aluImm .srl false rd rd sh
  | 1 => .aluImm .sra false rd rd sh
  | 2 => .aluImm .and false rd rd imm6
  | _ =>
    match bitsOf v 12 12 * 4 + bitsOf v 6 5 with
    | 0 => .alu .sub false rd rd rs2
    | 1 => .alu .xor false rd rd rs2
    | 2 => .alu .or false rd rd rs2
    | 3 => .alu .and false rd rd rs2
    | 4 => .alu .sub true rd rd rs2
    | 5 => .alu .add true rd rd rs2
    | _ => .illegal

/-- A 16-bit instruction of C without floating point. -/
def decode16 (v : Nat) : Rv :=
  let f3 := bitsOf v 15 13
  let r1 := bitsOf v 11 7
  let r2 := bitsOf v 6 2
  let rdq := 8 + bitsOf v 4 2
  let rsq := 8 + bitsOf v 9 7
  let b (hi lo sh : Nat) : Nat := bitsOf v hi lo * 2 ^ sh
  let sh := b 12 12 5 + b 6 2 0
  let imm6 := signedOf 6 sh
  let lw := b 12 10 3 + b 6 6 2 + b 5 5 6
  let ld := b 12 10 3 + b 6 5 6
  match v % 4 with
  | 0 =>
    (match f3 with
     | 0 =>
       let i := b 12 11 4 + b 10 7 6 + b 6 6 2 + b 5 5 3
       if i == 0 then .illegal else .aluImm .add false rdq 2 i
     | 2 => .load 2 rdq rsq lw
     | 3 => .load 3 rdq rsq ld
     | 6 => .store 2 rsq rdq lw
     | 7 => .store 3 rsq rdq ld
     | _ => .illegal)
  | 1 =>
    (match f3 with
     | 0 => .aluImm .add false r1 r1 imm6
     | 1 => if r1 == 0 then .illegal else .aluImm .add true r1 r1 imm6
     | 2 => .aluImm .add false r1 0 imm6
     | 3 =>
       if r1 == 2 then
         let i := b 12 12 9 + b 6 6 4 + b 5 5 6 + b 4 3 7 + b 2 2 5
         if i == 0 then .illegal else .aluImm .add false 2 2 (signedOf 10 i)
       else if sh == 0 then .illegal else .lui r1 (imm6 * 4096)
     | 4 => decodeCArith v rsq sh imm6
     | 5 => .jal 0 (signedOf 12 (b 12 12 11 + b 11 11 4 + b 10 9 8 + b 8 8 10 + b 7 7 6 + b 6 6 7 + b 5 3 1 + b 2 2 5))
     | 6 => .branch 0 rsq 0 (signedOf 9 (b 12 12 8 + b 11 10 3 + b 6 5 6 + b 4 3 1 + b 2 2 5))
     | _ => .branch 1 rsq 0 (signedOf 9 (b 12 12 8 + b 11 10 3 + b 6 5 6 + b 4 3 1 + b 2 2 5)))
  | 2 =>
    (match f3 with
     | 0 => .aluImm .sll false r1 r1 sh
     | 2 => if r1 == 0 then .illegal else .load 2 r1 2 (b 12 12 5 + b 6 4 2 + b 3 2 6)
     | 3 => if r1 == 0 then .illegal else .load 3 r1 2 (b 12 12 5 + b 6 5 3 + b 4 2 6)
     | 4 =>
       if bitsOf v 12 12 == 0 then
         (if r2 == 0 then (if r1 == 0 then .illegal else .jalr 0 r1 0) else .alu .add false r1 0 r2)
       else if r2 == 0 then (if r1 == 0 then .ebreak else .jalr 1 r1 0)
       else .alu .add false r1 r1 r2
     | 6 => .store 2 2 r2 (b 12 9 2 + b 8 7 6)
     | 7 => .store 3 2 r2 (b 12 10 3 + b 9 7 6)
     | _ => .illegal)
  | _ => .illegal

/-- The length in octets of an instruction, from its first half: 4 when the low two bits are 11. -/
def rvLength (half : Nat) : Nat := if half % 4 == 3 then 4 else 2

/-- Decodes an instruction of `rvLength` octets held in the low bits of v. -/
def decodeRv (v : Nat) : Rv := if v % 4 == 3 then decode32 (v % 2 ^ 32) else decode16 (v % 2 ^ 16)

/-- A 32-bit result sign-extended to 64 bits. -/
def sext32 (v : Word64) : Word64 := (v.truncate 32 : BitVec 32).signExtend 64

/-- The integer operations on 64-bit operands (I and M). -/
def alu64 (op : AluOp) (a b : Word64) : Word64 :=
  match op with
  | .add => a + b
  | .sub => a - b
  | .sll => a <<< (b.toNat % 64)
  | .slt => if a.toInt < b.toInt then 1 else 0
  | .sltu => if a.toNat < b.toNat then 1 else 0
  | .xor => a ^^^ b
  | .srl => a >>> (b.toNat % 64)
  | .sra => a.sshiftRight (b.toNat % 64)
  | .or => a ||| b
  | .and => a &&& b
  | .mul => a * b
  | .mulh => BitVec.ofInt 64 ((a.toInt * b.toInt).fdiv (2 ^ 64))
  | .mulhsu => BitVec.ofInt 64 ((a.toInt * (b.toNat : Int)).fdiv (2 ^ 64))
  | .mulhu => BitVec.ofNat 64 (a.toNat * b.toNat / 2 ^ 64)
  | .div => if b == 0 then -1 else BitVec.ofInt 64 (a.toInt.tdiv b.toInt)
  | .divu => if b == 0 then -1 else a / b
  | .rem => if b == 0 then a else BitVec.ofInt 64 (a.toInt.tmod b.toInt)
  | .remu => if b == 0 then a else a % b

/-- The W forms: the operation on the low 32 bits, sign-extended. -/
def alu32 (op : AluOp) (a b : Word64) : Word64 :=
  let x : BitVec 32 := a.truncate 32
  let y : BitVec 32 := b.truncate 32
  let r : BitVec 32 :=
    match op with
    | .add => x + y
    | .sub => x - y
    | .sll => x <<< (y.toNat % 32)
    | .srl => x >>> (y.toNat % 32)
    | .sra => x.sshiftRight (y.toNat % 32)
    | .mul => x * y
    | .div => if y == 0 then -1 else BitVec.ofInt 32 (x.toInt.tdiv y.toInt)
    | .divu => if y == 0 then -1 else x / y
    | .rem => if y == 0 then x else BitVec.ofInt 32 (x.toInt.tmod y.toInt)
    | .remu => if y == 0 then x else x % y
    | _ => 0
  r.signExtend 64

/-- Either form. -/
def aluOf (w : Bool) (op : AluOp) (a b : Word64) : Word64 := if w then alu32 op a b else alu64 op a b

/-- A branch is taken. -/
def branchTaken (f3 : Nat) (a b : Word64) : Bool :=
  match f3 with
  | 0 => a == b
  | 1 => a != b
  | 4 => decide (a.toInt < b.toInt)
  | 5 => decide (b.toInt ≤ a.toInt)
  | 6 => decide (a.toNat < b.toNat)
  | _ => decide (b.toNat ≤ a.toNat)

/-- Octets of a load or store funct3. -/
def accessWidth (f3 : Nat) : Nat := 2 ^ (f3 % 4)

/-- The value that a load writes: zero-extended for funct3 4 to 6, sign-extended otherwise. -/
def loadValue (f3 v : Nat) : Word64 :=
  if 4 ≤ f3 then BitVec.ofNat 64 v else BitVec.ofInt 64 (signedOf (8 * accessWidth f3) v)

/-- The value that an AMO stores, from the old value and rs2, in its width (funct5 of A). -/
def amoValue (f5 width old v : Nat) : Nat :=
  let n := 8 * width
  let a := old % 2 ^ n
  let b := v % 2 ^ n
  match f5 with
  | 0 => (a + b) % 2 ^ n
  | 1 => b
  | 4 => a ^^^ b
  | 8 => a ||| b
  | 12 => a &&& b
  | 16 => if signedOf n a ≤ signedOf n b then a else b
  | 20 => if signedOf n a ≤ signedOf n b then b else a
  | 24 => min a b
  | _ => max a b

end Sys2Proof.Machine
end

