-- ==== Sys2Proof/Machine/Tabor.lean ====
section
/-! DEFINITION. What every instruction of a Tabor core shares: registers, exceptions, stalls, the address map, the CSRs, the
check-value unit and the end of a core (R195 to R203, R214, R226 to R229). -/

namespace Sys2Proof.Machine

/-! ### Registers -/

/-- An integer register; x0 reads 0 (R195). -/
def Core.reg (c : Core) (r : Nat) : Word64 := if h : 0 < r ∧ r < 32 then c.regs[r]'h.2 else 0

/-- An integer register written; x0 discards (R195). -/
def Core.setReg (c : Core) (r : Nat) (v : Word64) : Core :=
  if h : 0 < r ∧ r < 32 then { c with regs := c.regs.set r v h.2 } else c

/-- The instruction of `len` octets at the pc retires (R195). -/
def Core.retire (c : Core) (len : Nat) : Core :=
  { c with pc := c.pc + BitVec.ofNat 64 len, instret := c.instret + 1, stall := .none }

/-- The status that an exception gives its invocation (R201). -/
def exceptionStatus (cause : Nat) : Status := if cause == 1 || cause == 5 || cause == 7 then .segmentFault else .badDescriptor

/-- Tickets with the status of the entry `t` set (R214). -/
def setTicket (t : Nat) (st : Status) (l : List Ticket) : List Ticket := l.map (fun x => if x.1 == t then (t, some st) else x)

/-- Tickets with a new one, newest first: the 256 latest, and older ones that are outstanding still (R214). -/
def addTicket (t : Nat) (l : List Ticket) : List Ticket := (t, none) :: (l.take 255 ++ (l.drop 255).filter (fun x => x.2.isNone))

/-- What a wait finds of a ticket among the 256 latest of a series whose next ticket is `next` (R214). -/
def findTicket (next t : Nat) (l : List Ticket) : Option (Option Status) :=
  if serialDiff 16 next t ≤ 256 then (l.take 256).lookup t else none

/-- Tickets outstanding. -/
def openTickets (l : List Ticket) : Nat := l.countP (fun x => x.2.isNone)

/-- The low 32 bits of a CSR's SWn that are fields: FORMAT, COUNT, BASE; the reserved bits read 0 (R203). -/
def windowMask : Word64 := 0x0F00FFFFFF7FFFFF

/-- The size of instruction memory (R196). -/
def imemSize : Nat := 0x10000

/-- First address of data memory, and the octet after it (R196). -/
def dmemBase : Nat := 0x00100000
/-- End of data memory (R196). -/
def dmemEnd : Nat := 0x00120000

/-- The address lies in the control page (R196). -/
def inControl (a : Nat) : Bool := decide (0x02000000 ≤ a) && decide (a < 0x02001000)

/-- The check value of a cluster's unit (R226, R227). -/
def cvResult (c : Cluster) : Nat :=
  match crcOfCode c.cvAlg with
  | some a => crcOut a c.cvReg
  | none => 0

namespace State

/-! ### Cores and their invocation -/

/-- The invocation that holds a core. -/
def invOf (s : State) (k : Nat) : Option Invocation := (s.core k).inv.bind s.inv

/-- A core can execute: it runs for an invocation and does not stall. -/
def coreReady (s : State) (k : Nat) : Bool := (s.core k).running && (s.invOf k).isSome && (s.core k).stall == .none

/-- A core stalls. -/
def stallCore (s : State) (k : Nat) (x : Stall) : State := s.updCore k (fun c => { c with stall := x })

/-- Cores of a cluster that stall on something full or busy try their command again, the lowest-numbered first (R206, R214,
R216, R228). -/
def wakeCores (s : State) (c : Nat) : State :=
  (List.range 16).foldl (fun s j =>
    match (s.core (16 * c + j)).stall with
    | .retry i => (s.stallCore (16 * c + j) .none).hand i
    | _ => s) s

/-- An exception in a core ends its invocation (R201). -/
def except (s : State) (k cause tval : Nat) : State :=
  match s.invOf k with
  | none => s
  | some v =>
    let c := s.core k
    (s.updCore k (fun c => { c with mcause := cause, mepc := c.pc, mtval := BitVec.ofNat 64 tval })).endInv v.id .exception
      (exceptionStatus cause) c.hart 0 cause c.pc.toNat tval

/-- An exception whose mtval no rule states: a free value (log entry 3). -/
def exceptFree (s : State) (k cause : Nat) : State :=
  let f := s.free
  f.2.except k cause f.1.toNat

/-- An illegal-instruction exception (R195, R200, R204, R214). -/
def illegal (s : State) (k : Nat) : State := s.exceptFree k 2

/-- A register is written and the instruction retires. -/
def retireReg (s : State) (k len rd : Nat) (v : Word64) : State := s.updCore k (fun c => (c.setReg rd v).retire len)

/-- Destination ranges of an invocation's work are noted (R202). -/
def noteWork (s : State) (id : Nat) (l : List (Space × Nat × Nat × Nat)) : State :=
  s.updInv id (fun v => { v with wrote := (v.wrote ++ l.filter (fun r => r.2.2.2 != 0)).eraseDups })

/-! ### Memory (R196 to R198) -/

/-- The window that a core sees at an address: space, cluster and address in it; none where the access fails (R46, R196). -/
def locate (s : State) (v : Invocation) (a width : Nat) (x : Rights) : Option (Space × Nat × Nat) :=
  if dmemBase ≤ a && a + width ≤ dmemEnd then some (.coreData, 0, a)
  else if 0x10000000 ≤ a && a + width ≤ 0x10800000 then
    if s.access v.part .scratch v.cluster (a - 0x10000000) width x then some (.scratch, v.cluster, a - 0x10000000) else none
  else if 0x8000000000 ≤ a && a + width ≤ 0xC800000000 then
    if s.access v.part .basalt 0 (a - 0x8000000000) width x then some (.basalt, 0, a - 0x8000000000) else none
  else none

/-- An access to scratch or Basalt waits: for new windows (R50), or, for a write, for a mirror (R405). -/
def coreWaits (s : State) (v : Invocation) (a width : Nat) (writes : Bool) : Bool :=
  decide (0x10000000 ≤ a) && (s.windowsWait v.part ||
    (writes && decide (0x8000000000 ≤ a) && s.writesWait (a - 0x8000000000) width))

/-- The reservation key of an address that a core sees (R198). -/
def coreKey (k : Nat) (sp : Space) (cluster a : Nat) : Nat :=
  if sp == .coreData then 2 ^ 41 + k * 2 ^ 17 + (a - dmemBase) else localKey sp cluster a

/-- Octets that a core reads. -/
def coreRead (s : State) (k : Nat) (sp : Space) (cluster a n : Nat) : Octets :=
  if sp == .coreData then memRead 0 (s.core k).dmem a n else s.readLocal sp cluster a n

/-- Octets written to a core's data memory (R198). -/
def writeData (s : State) (k a : Nat) (x : Octets) : State :=
  (s.breakReserve (coreKey k .coreData 0 a) x.length).updCore k (fun c => { c with dmem := memWrite 0 c.dmem a x })

/-- Octets that a core writes. -/
def coreWrite (s : State) (k : Nat) (sp : Space) (cluster a : Nat) (x : Octets) : State :=
  if sp == .coreData then s.writeData k a x else s.writeLocal sp cluster a x

/-! ### The check-value unit (R226 to R229) -/

/-- A core holds its cluster's check-value lock (R229). -/
def holdsLock (s : State) (k : Nat) : Bool := (s.cluster (k / 16)).cvHolder == some k

/-- A core uses a faulty unit: its invocation ends as at a watchdog expiry (R412). -/
def hangCore (s : State) (k : Nat) : State :=
  match s.invOf k with
  | some v => s.hangInv v.id
  | none => s

/-- A load from the control page: R229's lock, then the register; a load of CV_RESULT waits until every octet fed has been
taken (R227, R228). -/
def cvLoad (s : State) (k len rd f3 a : Nat) (cmd : Instr) : State :=
  let width := accessWidth f3
  let c := s.cluster (k / 16)
  let give (base reg : Nat) : State := s.retireReg k len rd (loadValue f3 (reg / 256 ^ (a - base) % 256 ^ width))
  if !s.holdsLock k then s.except k 5 a
  else if c.cvFaulty then s.hangCore k
  else if 0x02000000 ≤ a && a + width ≤ 0x02000004 then give 0x02000000 c.cvAlg
  else if 0x02000008 ≤ a && a + width ≤ 0x0200000C then give 0x02000008 0
  else if 0x02000010 ≤ a && a + width ≤ 0x02000018 then
    if c.cvBusy then s.stallCore k (.retry cmd) else give 0x02000010 (cvResult c)
  else s.except k 5 a

/-- A store to CV_CTRL: the algorithm is chosen, its initial value loaded and any state discarded (R227). -/
def cvCtrl (s : State) (k len v : Nat) : State :=
  let code := v % 8
  if !s.holdsLock k || 5 ≤ code then s.except k 7 0x02000000
  else if (s.cluster (k / 16)).cvFaulty then s.hangCore k
  else
    (s.updCluster (k / 16) (fun c => { c with cvAlg := code, cvReg := ((crcOfCode code).map CrcAlg.init).getD 0, cvBusy := false })).updCore k
      (fun c => c.retire len)

/-- A store to CV_DATA of `width` octets: least significant first; it stalls while the unit is busy (R227, R228). -/
def cvData (s : State) (k len width v : Nat) (cmd : Instr) : State :=
  let c := s.cluster (k / 16)
  if !s.holdsLock k || 4 < width then s.except k 7 0x02000008
  else if c.cvFaulty then s.hangCore k
  else match crcOfCode c.cvAlg with
    | none => s.updCore k (fun c => c.retire len)
    | some a =>
      if c.cvBusy then s.stallCore k (.retry cmd)
      else
        (s.updCluster (k / 16) (fun c => { c with cvReg := (leBytes width v).foldl (crcOctet a) c.cvReg, cvBusy := true })).updCore k
          (fun c => c.retire len)

/-- A store to the control page: only CV_CTRL, of at most 4 octets, and CV_DATA take one, at their own address. To what a store to an
inner octet of either, or an SD to CV_CTRL, does the spec gives no answer: here a store access fault (R227; DESIGN CHOICE, log entry 18). -/
def cvStore (s : State) (k len width a v : Nat) (cmd : Instr) : State :=
  if a == 0x02000000 && width ≤ 4 then s.cvCtrl k len v
  else if a == 0x02000008 then s.cvData k len width v cmd
  else s.except k 7 a

/-- CVLOCK (R229). -/
def lockCore (s : State) (k rd : Nat) : State :=
  let c := s.cluster (k / 16)
  if c.cvHolder.isNone || s.holdsLock k then
    (s.updCluster (k / 16) (fun c => { c with cvHolder := some k })).retireReg k 4 rd 0
  else (s.updCluster (k / 16) (fun c => { c with cvWaiting := c.cvWaiting ++ [k] })).stallCore k (.cvlock rd)

/-- CVUNLOCK (R229). -/
def unlockCore (s : State) (k rd : Nat) : State :=
  (if s.holdsLock k then s.passLock (k / 16) else s).retireReg k 4 rd 0

/-! ### CSRs (R195, R203) -/

/-- SSTATUS of a core (R203). -/
def sstatus (s : State) (k : Nat) : Word64 :=
  let c := s.core k
  let busy := (s.cluster (k / 16)).streamQ.any (fun j => j.core == k)
  BitVec.ofNat 64 (4 * busy.toNat + 2 * c.statusTrunc.toNat + c.statusIndex.toNat)

/-- A CSR that a core can read; none for any other (R195, R203). -/
def csrValue (s : State) (k addr : Nat) : Option Word64 :=
  let c := s.core k
  if 0x7C0 ≤ addr && addr < 0x7D0 then some (c.windows.toList.getD (addr - 0x7C0) 0)
  else match addr with
    | 0x301 => some 0x8000000000001105
    | 0xF14 => some (BitVec.ofNat 64 c.hart)
    | 0xB00 | 0xC00 => some c.cycles
    | 0xB02 | 0xC02 => some c.instret
    | 0xC01 => some (BitVec.ofNat 64 s.now)
    | 0x342 => some (BitVec.ofNat 64 c.mcause)
    | 0x341 => some c.mepc
    | 0x343 => some c.mtval
    | 0x7D0 => some (s.sstatus k)
    | 0x7D1 => some (c.scount.setWidth 64)
    | 0x7D2 => some (c.sscalar.setWidth 64)
    | 0x7D3 => some (c.sinv.setWidth 64)
    | _ => none

/-- A CSR that a core can write: the stream CSRs alone; its fields change by their access codes (R7, R195, R203). -/
def csrWrite (s : State) (k addr : Nat) (v : Word64) : Option State :=
  if 0x7C0 ≤ addr && addr < 0x7D0 then
    some (s.updCore k (fun c => { c with windows := c.windows.set (fin16 (addr - 0x7C0)) (v &&& windowMask) }))
  else match addr with
    | 0x7D0 => some (s.updCore k (fun c => { c with
        statusTrunc := c.statusTrunc && !v.getLsbD 1, statusIndex := c.statusIndex && !v.getLsbD 0 }))
    | 0x7D1 | 0x7D3 => some s
    | 0x7D2 => some (s.updCore k (fun c => { c with sscalar := v.setWidth 32 }))
    | _ => none

/-! ### The end of a core (R200) -/

/-- a0 of core 0 of an invocation while it runs, otherwise 0 (R200). -/
def exitValue (s : State) (v : Invocation) : Word64 :=
  match v.cores.head? with
  | some k => if (s.core k).running then (s.core k).reg 10 else 0
  | none => 0

/-- ECALL with a7 = 0: the core ends, and with the last one its invocation (R200). -/
def endCore (s : State) (k : Nat) : State :=
  match s.invOf k with
  | none => s
  | some v =>
    let exit := s.exitValue v
    let s := s.updCore k (fun c => { c with running := false })
    if v.cores.any (fun j => (s.core j).running) then s else s.endInv v.id .exit .ok 0 exit 0 0 0

/-- ECALL with a7 = 1: the invocation ends (R200). -/
def endAll (s : State) (k : Nat) : State :=
  match s.invOf k with
  | none => s
  | some v => s.endInv v.id .exit .ok 0 (s.exitValue v) 0 0 0

end State

end Sys2Proof.Machine
end

