-- ==== Sys2Proof/Machine/StreamUnit.lean ====
section
/-! DEFINITION. Stream instructions: their form, their issue into the cluster's queue, and their end (R203 to R212). -/

namespace Sys2Proof.Machine

/-- A window register's value: format, count and base; none for a reserved format, a count above 8,388,608 or a base that is
no multiple of the element size (R203). -/
def winOf (v : Word64) : Option SWin := do
  let n := v.toNat
  let f ← fmtOfCode (bitsOf n 59 56)
  okIf (bitsOf n 47 24 ≤ 8388608 && bitsOf n 22 0 % f.size == 0)
  some ⟨f, bitsOf n 47 24, bitsOf n 22 0⟩

/-- Octets of a window. -/
def SWin.length (w : SWin) : Nat := w.count * w.fmt.size

/-- An instruction uses its rs2 window (R204, R210, R212). -/
def streamUsesRs2 (op : StreamOp) (modifier : Nat) : Bool :=
  match op with
  | .ssum | .sscan => false
  | .smap => mapUsesRs2 modifier
  | .ssort => modifier.testBit 1
  | .sgather | .sfilter | .smerge => true

/-- The modifier is one that the operation has (R204, R210, R212). -/
def streamModifierOk (op : StreamOp) (modifier : Nat) : Bool :=
  match op with
  | .ssum | .sscan | .sgather | .sfilter => modifier == 0
  | .smap => modifier ≤ 0x0B
  | .ssort => modifier ≤ 3
  | .smerge => modifier ≤ 1

/-- The counts and formats that the operation's row allows (R204, R210); `b` is the rs2 window, where it is used. -/
def streamCountsOk (op : StreamOp) (modifier : Nat) (d a : SWin) (b : Option SWin) : Bool :=
  match op with
  | .ssum => 1 ≤ d.count
  | .smap =>
    d.count ≤ a.count && (modifier < 0x0A || d.fmt == .uint8) && (match b with
      | some b => d.count ≤ b.count
      | none => true)
  | .sscan => a.count ≤ d.count
  | .sgather => d.fmt == a.fmt && (match b with
      | some b => b.fmt == .uint32 && d.count ≤ b.count
      | none => false)
  | .sfilter => d.fmt == a.fmt && (match b with
      | some b => b.fmt == .uint8 && a.count ≤ b.count
      | none => false)
  | .ssort => d.fmt == a.fmt && a.count ≤ d.count && (match b with
      | some b => b.fmt == .uint32 && a.count ≤ b.count
      | none => true)
  | .smerge => d.fmt == a.fmt && (match b with
      | some b => b.fmt == a.fmt
      | none => false)

/-- The windows of an instruction whose form R204 allows: rd, rs1 and, where it is used, rs2. -/
def streamForm (op : StreamOp) (f : StreamFields) (w : Nat → Word64) : Option (SWin × SWin × Option SWin) := do
  okIf (f.rd < 16 && f.rs1 < 16 && f.rs2 < 16 && streamModifierOk op f.modifier)
  let d ← winOf (w f.rd)
  let a ← winOf (w f.rs1)
  if streamUsesRs2 op f.modifier then
    let b ← winOf (w f.rs2)
    okIf (streamCountsOk op f.modifier d a (some b))
    some (d, a, some b)
  else
    okIf (f.rs2 == 0 && streamCountsOk op f.modifier d a none)
    some (d, a, none)

/-- Destination windows: rd, and rs2 where SSORT writes its permutation (R204, R212). -/
def streamDests (op : StreamOp) (d : SWin) (b : Option SWin) : List SWin := if op == .ssort then d :: b.toList else [d]

/-- Source windows. -/
def streamSources (op : StreamOp) (a : SWin) (b : Option SWin) : List SWin := if op == .ssort then [a] else a :: b.toList

/-- Two windows share an octet. -/
def winsMeet (x y : SWin) : Bool := rangesMeet (x.base, x.length) (y.base, y.length)

/-- A destination overlaps a source in a way that R207 does not allow, or the two destinations of SSORT overlap: the
destinations are undefined. -/
def streamClash (op : StreamOp) (ds ss : List SWin) : Bool :=
  ds.any (fun d => ss.any (fun a => winsMeet d a && !((op == .smap || op == .sscan) && d == a))) ||
  (match ds with
   | [d, e] => winsMeet d e
   | _ => false)

/-- What an instruction computes from its source elements (R208 to R212). -/
def streamCompute (j : StreamJob) (d a : SWin) (b : Option SWin) (as bs : List Nat) : StreamRes :=
  let fb := (b.map SWin.fmt).getD .fp32
  match j.op with
  | .ssum => streamSum j.strict a.fmt d.fmt as
  | .smap => streamMap j.strict j.modifier j.scalar.toNat a.fmt fb d.fmt d.count as bs
  | .sscan => streamScan j.strict a.fmt d.fmt as
  | .sgather => streamGather as bs d.count
  | .sfilter => streamFilter as bs d.count
  | .ssort => streamSort j.strict (j.modifier.testBit 0) (j.modifier.testBit 1) a.fmt as
  | .smerge => streamMerge j.strict (j.modifier.testBit 0) a.fmt as bs d.count

/-- The octets of a destination after its elements are written; none leaves an element as it was. -/
def streamBytes (f : Fmt) (old : Octets) (out : List (Option Nat)) : Octets :=
  elemBytes f (out.zipIdx.map (fun q => match q.1 with
    | some v => v
    | none => elemAt f q.2 old))

namespace State

/-- A window lies in scratch and one SCRATCH window covers it with the right; a window of count 0 passes (R205). -/
def windowOk (s : State) (v : Invocation) (x : Rights) (w : SWin) : Bool :=
  w.length == 0 || (w.base + w.length ≤ 8388608 && s.access v.part .scratch v.cluster w.base w.length x)

/-- The issue of a stream instruction (R204 to R206). -/
def issueStream (s : State) (k : Nat) (cmd : Instr) (op : StreamOp) (f : StreamFields) : State :=
  match s.invOf k with
  | none => s
  | some v =>
    let c := s.core k
    let w (i : Nat) : Word64 := c.windows.toList.getD i 0
    match streamForm op f w with
    | none => s.illegal k
    | some (d, a, b) =>
      if (s.cluster v.cluster).faulty then s.hangInv v.id
      else if s.windowsWait v.part then s.stallCore k (.retry cmd)
      else if !((streamSources op a b).all (s.windowOk v .read)) then s.exceptFree k 5
      else if !((streamDests op d b).all (s.windowOk v .write)) then s.exceptFree k 7
      else if 32 ≤ (s.cluster v.cluster).streamQ.length then s.stallCore k (.retry cmd)
      else
        let j : StreamJob := ⟨k, v.id, op, f.strict, f.modifier, w f.rd, w f.rs1, w f.rs2, c.sscalar⟩
        let s := s.updCluster v.cluster (fun x => { x with streamQ := x.streamQ ++ [j] })
        (s.noteWork v.id ((streamDests op d b).map (fun x => (Space.scratch, v.cluster, x.base, x.length)))).updCore k
          (fun c => c.retire 4)

/-- SWAIT: SSTATUS to rd when none of the core's stream instructions remains (R206). -/
def swaitCore (s : State) (k rd : Nat) : State :=
  if (s.cluster (k / 16)).streamQ.any (fun j => j.core == k) then s.stallCore k (.swait rd)
  else s.retireReg k 4 rd (s.sstatus k)

/-- A core that stalls in SWAIT goes on when its last stream instruction has ended (R206). -/
def endSwait (s : State) (k : Nat) : State :=
  match (s.core k).stall with
  | .swait rd => s.swaitCore k rd
  | _ => s

/-- A stream instruction's results reach scratch, SSTATUS, SCOUNT, the flags and the trap records (R191, R203, R207 to
R212). -/
def writeStream (s : State) (c : Nat) (j : StreamJob) (d a : SWin) (b : Option SWin) : State :=
  let get (w : SWin) : List Nat := elemsOf w.fmt w.count (s.readLocal .scratch c w.base w.length)
  let ss := streamSources j.op a b
  let ds := streamDests j.op d b
  let r := streamCompute j d a b (get a) ((b.map get).getD [])
  let old := s.readLocal .scratch c d.base (r.out.length * d.fmt.size)
  let s := ss.foldl (fun s w => s.noteRead none .scratch c w.base w.length) s
  let s := if streamClash j.op ds ss then s.spoil (ds.map (fun w => (Space.scratch, c, w.base, w.length)))
    else
      let s := s.writeLocal .scratch c d.base (streamBytes d.fmt old r.out)
      match b with
      | some b => if r.perm.isEmpty then s else s.writeLocal .scratch c b.base (elemBytes b.fmt r.perm)
      | none => s
  let s := s.updCore j.core (fun x => { x with
    statusTrunc := x.statusTrunc || r.trunc, statusIndex := x.statusIndex || r.index,
    scount := (r.scount.map (BitVec.ofNat 32)).getD x.scount })
  let s := s.updInv j.inv (fun v => { v with flags := v.flags.or (r.flags.inMode j.strict) })
  match r.trap with
  | some (i, cause) => s.trapInv j.inv 2 i cause 3 c
  | none => s

/-- The stream instruction at the head of a cluster's queue ends (R206). One of an invocation that has ended otherwise than normally
finishes as any other; what it could write is undefined when the invocation completes (R202). -/
def endStream (s : State) (c : Nat) : State :=
  match (s.cluster c).streamQ with
  | [] => s
  | j :: r =>
    let s := s.updCluster c (fun x => { x with streamQ := r })
    let s := match winOf j.rd, winOf j.rs1 with
      | some d, some a =>
        if (s.inv j.inv).isSome then s.writeStream c j d a (if streamUsesRs2 j.op j.modifier then winOf j.rs2 else none) else s
      | _, _ => s
    (((s.endSwait j.core).wakeCores c).checkInv j.inv)

end State

/-! ### Meanings -/

/-- A stream instruction of a core that can execute is issued. -/
def issueOn (core : CoreId) (cmd : Instr) (op : StreamOp) (f : StreamFields) (s : State) : State :=
  if s.coreReady core then s.issueStream core cmd op f else s

/-- SSUM (R204 to R206, R208). -/
def execSsum (core : CoreId) (f : StreamFields) (s : State) : Host.Outcome State Fault Refusal :=
  .next (issueOn core (.ssum core f) .ssum f s)

/-- SMAP (R204 to R206, R210). -/
def execSmap (core : CoreId) (f : StreamFields) (s : State) : Host.Outcome State Fault Refusal :=
  .next (issueOn core (.smap core f) .smap f s)

/-- SSCAN (R204 to R206, R209). -/
def execSscan (core : CoreId) (f : StreamFields) (s : State) : Host.Outcome State Fault Refusal :=
  .next (issueOn core (.sscan core f) .sscan f s)

/-- SGATHER (R204 to R206, R212). -/
def execSgather (core : CoreId) (f : StreamFields) (s : State) : Host.Outcome State Fault Refusal :=
  .next (issueOn core (.sgather core f) .sgather f s)

/-- SFILTER (R204 to R206, R212). -/
def execSfilter (core : CoreId) (f : StreamFields) (s : State) : Host.Outcome State Fault Refusal :=
  .next (issueOn core (.sfilter core f) .sfilter f s)

/-- SSORT (R204 to R206, R212). -/
def execSsort (core : CoreId) (f : StreamFields) (s : State) : Host.Outcome State Fault Refusal :=
  .next (issueOn core (.ssort core f) .ssort f s)

/-- SMERGE (R204 to R206, R212). -/
def execSmerge (core : CoreId) (f : StreamFields) (s : State) : Host.Outcome State Fault Refusal :=
  .next (issueOn core (.smerge core f) .smerge f s)

/-- STREAM_INSTRUCTION_DONE (R206 to R212). -/
def execStreamInstructionDone (c : ClusterId) (s : State) : Host.Outcome State Fault Refusal := .next (s.endStream c)

/-- SWAIT (R206, R214). -/
def execSwait (core : CoreId) (rd : Fin 32) (s : State) : Host.Outcome State Fault Refusal :=
  .next (if s.coreReady core then s.swaitCore core rd else s)

end Sys2Proof.Machine
end

