-- ==== Sys2Proof/Machine/Dma.lean ====
section
/-! DEFINITION. The cluster DMA engine: SDMA, DWAIT and the end of a transfer (R214, R215). -/

namespace Sys2Proof.Machine

/-- A DMA block (R215). -/
structure DmaBlock where
  srcSpace : Nat
  srcCluster : Nat
  dstSpace : Nat
  dstCluster : Nat
  length : Nat
  src : Nat
  dst : Nat
  stream : Nat
  reservedOk : Bool
  deriving DecidableEq, Repr, Inhabited

/-- Reads the 32 octets of a block (R215). -/
def dmaBlock (x : Octets) : DmaBlock :=
  { srcSpace := octetAt 0 x, srcCluster := octetAt 1 x, dstSpace := octetAt 2 x, dstCluster := octetAt 3 x, length := leAt 4 4 x,
    src := leAt 8 8 x, dst := leAt 16 8 x, stream := leAt 24 4 x, reservedOk := leAt 24 4 x < 2 ^ 20 && zerosAt 28 4 x }

/-- Space of a DMA code (R215). -/
def dmaSpace : Nat → Option Space
  | 0 => some .global
  | 1 => some .scratch
  | 2 => some .basalt
  | 3 => some .coreData
  | _ => none

/-- Octets of a space (R86, R196, R215). -/
def spaceSize : Space → Nat
  | .global => 2 ^ 64
  | .scratch => 8388608
  | .basalt => 288 * 2 ^ 30
  | .coreData => 0x20000

/-- One side of a transfer has a space, a cluster where it needs one, and a range inside its space (R215). -/
def dmaSideOk (sp : Option Space) (cluster a len : Nat) : Bool :=
  match sp with
  | none => false
  | some sp => (if sp == .scratch then cluster < 16 else cluster == 0) && a + len ≤ spaceSize sp

namespace State

/-- A side of a transfer lies at a remote site (R129). -/
def dmaRemote (s : State) (sp : Option Space) (a : Nat) : Bool := sp == some .global && s.siteRemote (siteOf a)

/-- A side passes the window check; core data memory is covered by a fixed window (R46, R196). -/
def dmaAccess (s : State) (p : Nat) (sp : Option Space) (cluster a len : Nat) (x : Rights) : Bool :=
  match sp with
  | none => false
  | some .coreData => true
  | some sp => s.access p sp cluster a len x

/-- The status that a block ends with before an octet moves (R129, R215). -/
def dmaCheck (s : State) (p : Nat) (b : DmaBlock) : Option Status :=
  let ss := dmaSpace b.srcSpace
  let ds := dmaSpace b.dstSpace
  let rs := s.dmaRemote ss b.src
  let rd := s.dmaRemote ds b.dst
  if !b.reservedOk || b.length == 0 || decide (8388608 < b.length) || !dmaSideOk ss b.srcCluster b.src b.length ||
      !dmaSideOk ds b.dstCluster b.dst b.length || (!rs && !rd && b.stream != 0) then some .badDescriptor
  else if (rs && !(s.holdsStream p b.stream && s.leadsTo b.stream (siteOf b.src))) ||
      (rd && !(s.holdsStream p b.stream && s.leadsTo b.stream (siteOf b.dst))) then some .notPermitted
  else if !s.dmaAccess p ss b.srcCluster b.src b.length .read || !s.dmaAccess p ds b.dstCluster b.dst b.length .write then
    some .segmentFault
  else none

/-- The class in which an invocation's work leaves: that of its PROG_INVOKE, or of the peal of a projection (R116). -/
def invClass (s : State) (v : Invocation) : Class :=
  match v.purpose with
  | .desc d => ((s.desc d).map (fun x => x.hdr.cls)).getD 0
  | .projection g n _ _ _ => (((s.peal v.part g n).bind (fun x => x.first)).map (fun x => x.2.2)).getD 0

/-- Octets of one local side of a transfer. -/
def dmaRead (s : State) (core : Nat) (sp : Option Space) (cluster a len : Nat) : Octets :=
  match sp with
  | some .coreData => memRead 0 (s.core core).dmem (dmemBase + a) len
  | some sp => s.readLocal sp cluster a len
  | none => []

/-- Octets written to one local side of a transfer. -/
def dmaWrite (s : State) (core : Nat) (sp : Option Space) (cluster a : Nat) (x : Octets) : State :=
  match sp with
  | some .coreData => s.writeData core (dmemBase + a) x
  | some sp => s.writeLocal sp cluster a x
  | none => s

/-- The write of a transfer waits for a mirror (R405). -/
def dmaWaits (s : State) (b : DmaBlock) : Bool := dmaSpace b.dstSpace == some .basalt && s.writesWait b.dst b.length

/-- A change of the transfer at the head of a cluster's engine. -/
def updDma (s : State) (c : Nat) (f : DmaJob → DmaJob) : State :=
  s.updCluster c (fun k => { k with dmaQ := match k.dmaQ with
    | [] => []
    | j :: r => f j :: r })

/-- The transfer at the head of an engine starts: a GLOBAL side is read or written in pieces (R215). -/
def startDma (s : State) (c : Nat) : State :=
  match (s.cluster c).dmaQ with
  | [] => s
  | j :: _ =>
    let b := dmaBlock j.block
    match s.inv j.inv with
    | none => s
    | some v =>
      if j.started || s.dmaWaits b then s
      else
        let s := s.updDma c (fun j => { j with started := true })
        let cls := s.invClass v
        if dmaSpace b.srcSpace == some .global then
          s.startRead v.part b.stream cls (.clusterDma c) (.dma c) b.src b.length
        else if dmaSpace b.dstSpace == some .global then
          let x := s.dmaRead j.core (dmaSpace b.srcSpace) b.srcCluster b.src b.length
          let s := match dmaSpace b.srcSpace with
            | some sp => s.noteRead none sp b.srcCluster b.src b.length
            | none => s
          s.startWrite v.part b.stream cls (.clusterDma c) (.dma c) [(b.dst, x)]
        else s

/-- DWAIT: the status of a ticket, at once or after its transfer ends (R214). -/
def dwaitCore (s : State) (k rd : Nat) (ticket : Nat) : State :=
  match findTicket (s.core k).dmaNext ticket (s.core k).dmaTickets with
  | some none => s.stallCore k (.dwait ticket rd)
  | some (some st) => s.retireReg k 4 rd (BitVec.ofNat 64 (statusCode st))
  | none => s.retireReg k 4 rd (BitVec.ofNat 64 (statusCode .badDescriptor))

/-- A ticket takes its status, and a core that waits for it goes on (R214). -/
def endDmaTicket (s : State) (k inv ticket : Nat) (st : Status) : State :=
  if (s.core k).inv != some inv then s
  else
    let s := s.updCore k (fun c => { c with dmaTickets := setTicket ticket st c.dmaTickets })
    match (s.core k).stall with
    | .dwait t rd => if t == ticket then s.dwaitCore k rd t else s
    | _ => s

/-- The transfer at the head of an engine ends with a status; the next starts (R215). -/
def endDma (s : State) (c : Nat) (st : Status) : State :=
  match (s.cluster c).dmaQ with
  | [] => s
  | j :: r =>
    let s := s.updCluster c (fun k => { k with dmaQ := r })
    (((s.endDmaTicket j.core j.inv j.ticket st).wakeCores c).checkInv j.inv).startDma c

/-- A transfer's octets have been read: they are written, in pieces to a GLOBAL side (R215). -/
def dmaData (s : State) (c : Nat) (j : DmaJob) (b : DmaBlock) (x : Octets) : State :=
  if dmaSpace b.dstSpace == some .global then
    match s.inv j.inv with
    | some v =>
      s.startWrite v.part b.stream (s.invClass v) (.clusterDma c) (.dma c) [(b.dst, x)]
    | none => s.endDma c .timeout
  else (s.dmaWrite j.core (dmaSpace b.dstSpace) b.dstCluster b.dst x).endDma c .ok

/-- DMA_DONE for a transfer with a GLOBAL side: its read or its write in pieces has ended (R215). -/
def dmaPieces (s : State) (c : Nat) (j : DmaJob) (b : DmaBlock) : State :=
  match s.takeXfer (.dma c) with
  | none => s
  | some (x, s) =>
    if x.status != .ok then s.endDma c x.status
    else if x.read then s.dmaData c j b x.data
    else s.endDma c .ok

/-- DMA_DONE (R215). -/
def dmaEnds (s : State) (c : Nat) : State :=
  match (s.cluster c).dmaQ with
  | [] => s
  | j :: _ =>
    let b := dmaBlock j.block
    if !j.started then s.startDma c
    else if dmaSpace b.srcSpace == some .global || dmaSpace b.dstSpace == some .global then s.dmaPieces c j b
    else
      let x := s.dmaRead j.core (dmaSpace b.srcSpace) b.srcCluster b.src b.length
      let s := match dmaSpace b.srcSpace with
        | some sp => s.noteRead none sp b.srcCluster b.src b.length
        | none => s
      (s.dmaWrite j.core (dmaSpace b.dstSpace) b.dstCluster b.dst x).endDma c .ok

/-- SDMA: the block is read from data memory, checked, and queued, or its ticket ends at once (R214, R215). -/
def sdmaCore (s : State) (k rd a : Nat) (cmd : Instr) : State :=
  match s.invOf k with
  | none => s
  | some v =>
    if a % 8 != 0 then s.except k 4 a
    else if a < dmemBase || dmemEnd < a + 32 then s.except k 5 a
    else if s.windowsWait v.part || 16 ≤ openTickets (s.core k).dmaTickets then s.stallCore k (.retry cmd)
    else
      let x := memRead 0 (s.core k).dmem a 32
      let b := dmaBlock x
      let t := (s.core k).dmaNext
      let s := s.updCore k (fun c => { c with dmaNext := (t + 1) % 65536, dmaTickets := addTicket t c.dmaTickets })
      let s := s.retireReg k 4 rd (BitVec.ofNat 64 t)
      match s.dmaCheck v.part b with
      | some st => s.endDmaTicket k v.id t st
      | none =>
        let s := s.noteWork v.id (match dmaSpace b.dstSpace with
          | some .scratch => [(Space.scratch, b.dstCluster, b.dst, b.length)]
          | some .basalt => [(Space.basalt, 0, b.dst, b.length)]
          | _ => [])
        (s.updCluster v.cluster (fun c => { c with dmaQ := c.dmaQ ++ [⟨k, v.id, t, x, false⟩] })).startDma v.cluster

end State

/-! ### Meanings -/

/-- SDMA (R214, R215). -/
def execSdma (core : CoreId) (rs1 rd : Fin 32) (s : State) : Host.Outcome State Fault Refusal :=
  .next (if s.coreReady core then s.sdmaCore core rd ((s.core core).reg rs1).toNat (.sdma core rs1 rd) else s)

/-- DWAIT (R214). -/
def execDwait (core : CoreId) (rs1 rd : Fin 32) (s : State) : Host.Outcome State Fault Refusal :=
  .next (if s.coreReady core then s.dwaitCore core rd ((s.core core).reg rs1).toNat else s)

/-- DMA_DONE (R215). -/
def execDmaDone (c : ClusterId) (s : State) : Host.Outcome State Fault Refusal := .next (s.dmaEnds c)

end Sys2Proof.Machine
end

