-- ==== Sys2Proof/Machine/LineCode.lean ====
section
/-! DEFINITION. The basic line frame as octets: overhead, RS(850,782) coding, scrambling, the section check and the FAS words
of the lanes (R278 to R284, R288). -/

namespace Sys2Proof.Machine

/-! ### GF(2^10) (R281) -/

/-- Multiplication by α modulo x^10 + x^3 + 1. -/
def gfDouble (a : Nat) : Nat := if a < 512 then 2 * a else (2 * a - 1024) ^^^ 9

/-- The powers α^0 to α^1022, ten bits each, α^0 in the lowest ten: each is gfDouble of the one before it. -/
def gfPowers : Nat := 0x20440881911222464c4989393722646cc598b39772a656ce59eb7d7fabf47ec7d8fb9e738670ce19e37c7f8bf07e47c8f99e13c2784f88f15e39c7b9f77effdbfa7f07e0fc1f83f86f09e01c0380700e01c0380781f07e1fc7f9ff7ffffbfe7f87f0fe1fe3bc6788710e21c63c4788f90f25e59cbb87746e8dd9a935a794fa8f55eb9d7bbf73ef7da7b6f25e6b8570ae15e2fc4f8df09e1bd17a2f65a4b692526a0540a81502a0560e41e87d1fa7f5feffcffdfe9fdbe97dae95daa955ab957abf53eb7d27a6f05e0bc1782f84f0de09c1b91722e6584b09612e21c518a316664ce9dd29a5b596bac75c6b8d79bf33e77ca796f65eeb9d61ac3586b8c71c638c799f37e7fcbf87f47e8fd9e93da694da8951ab1562ae51cb19632e61cd19a336624c69c538a795f2fe4fcdf89f1bf17e2fe5bca790720e41c8398610c218438971662ec1d91b2366684d09a136224468c518a39572e65ecfd8fb5f79efbcf7dee9ddba975af95faaf51eb1d63ae71cf19e33e63cd79e73ee3dd7be77eebdc7bc778ef9cf3de69cdb8971af15e2be53cb792726e05c0b81702e05e0fc0f85f19e3bd77e6fedbda7b0760ec1d83b86708610c2186344688d90921a514a296564ae91d31a634e6dcc999b21642c8598a1142284589913a3742686d45a8b59792fa4f4de89d1bb1762ee59ca194328658d91ba2740680d01a0340680d80901a1142286544a89593927a5f4fe8fd5fb9f7bff7bee7d87b0f61ee39c618c318638d71e63ec3d97b676ee9dc1b83706e0de1fc2f81f11e23c67c4f89f92f21e51ca396764ee99d21a4348698c1182304608e15c3987b1f67edfdffaff1ff1fe3fe7bce798730e61ce3dc698db0961ad15a2b6524a690520a4148298410821042086144288591923a574e69ed7dbfb3f77ea7d6fe5febbd67a8750ea1d63e47e8bd07a4748e99c1382704e09e17c3f83f17e67cefdde9bdb696dac959aa1542a8558b917a3f43e97d67aef1df1be37e6bcc79c738e79df3fe6fc9f81f03e07c0f81f82f01e11c2386744e89d92925a594ba87546a8d59b937a7f4be87d47a8f59f93fa6f49e81d03a0740e81d82905a1943a97566aed1db1b636e69cc198330660ce1dc2985b1963ad75e6bed3db7b2766e85d0ba1762a4568e51ea7d5faff4fedfc9f9be17c2f85f8af11e31c638e75cf99fb2f61ed1da3b6724e698530a614e2dc4989b01602c0580b01602e01c1182306644c89992124248498811022044088118310620e45c9993b37626c6dc5b8b797f2be47cc798f39f73a676ca596b656ea9d41a83506a0d61e43e83d17a674eeddc9b9b616c2d85b8a710620c4188318710e21e47c9f97f3fe3fd7fe7fefbde7b8770ee1de3fc6f89f01e03c0780f01e03e03c178670ee5dd9bbb67686d0da1b63246688510a21462c4588b90724648c9981302604c0981383702606c4588b19712e25e4fc8f95f39e7bdf7feefd9fa1f43e87d8e91da2945a9953ab7526a6d05a0b41682d84909a0140280500a0140280581903a174668ed5db9b7b7f6bec7dc7b8f79ff3be67c8790f21e6384708e11e27c5f8ff0fe5fd9fbbe7786f0de1be33c778a716e65cebdd69adb4969ac1582b0560ae11c318630e65cd99bb27606c0d81b03606e09c0180300600c0180300600e05c1983b17666ceddda9b5b796facf5dea9d5bb977aff5bea7d07a0f41e83d8690da0941a91522a6504a094128258590ba0744688d19b13626e49c8190320640c819821042084189112226404809012024048098010020040080100200400801

/-- For each element from 1 to 1023 the e below 1023 with α^e equal to it, ten bits each, at ten times the element. -/
def gfLogs : Nat := 0xed4f8dc21ded36fecfb2ed87b3e72cdc56787bcadca5b5a3e687df4f2cb5eddda1f3da3eb0fcb5b9882e97d48ef33922da56dcdc89719e5a762f9c383ecbbc4124cbb3e6e888ee2b376e3d1f787f6cedf36d0e4ecc2dee595cf488648ba9577d97623eac5ab97d8eddfa03f0e5eedd110725e69767d67d97cbed4cfdc06eec7226183f3a32f235c46be497081fbd1e215ff70723bbacee4e4ad1b1773598fbc32e2b0b99c5961d73d478f38e1b47a0e510db36457dc935dd8924045ab4de88848926fbbad2c5605cfa57a103440e86d7bf395ad8ce61a6d90aab7919979fa9fa97683496622fdd4964442472a8679e706f15bb22d922920867e2cc05fb571bd029370585c4aeeaff1f49beec26773f52fe90d02f7f48d81df764c1cf343be13eb6511fefef4b4fe254d5810677625d68638fd7ff12a6ee84b39543ad4c66c855965f27630d3db6d1e5652e73cac785b9f9071b60e543d43a7bb3ae391974f3c7038b57b4ac5e86bc244431192aab9d537d0b7e347252845e06b628a8bb3ec4b7f25651e1769188d7d124c492a11bf14b0eee11bac37c36bceb8efa91c5ee0f105d3d1469d97672af23b7f69469d15b0ad6342fe672569f7e6879bd2b16667278c15297da97ee9d9ff80a620a72d6ea1ef27a0af9c4d8dd98f25e6744831094a122d9b4863a86b29f8fd76f632571aeb2554b69e3d05a3a502170b9d61af8cc74c18140b5b18c70cd49e81fbcc1c2b829e354c4e9abbe64b020cc802c2fa61fd7f88ddab0793d3f9fd4c3fbe969f344103c1ea853a8eb8b194884f7a73936a21d0dacd62be29cd538d45857041e8d20289bfc13f4ef4d41399011460101f1433a9f037782789a00d6ca319205adb7831d336cd9115817eec99133fe39a69510093de1cdbbb11eb2b59bc996be57ccb4767d9c39b8ba08de465571d9dd84372e923cf487aca3ce18ecb3ecbb90f391d565d6abe5adc0f9ed43de59f196b4dbfb1a17e8a34af707f415e1c7ab38db0d63c2abdc4758773839f4324424988110dd11efa4ac5b5e7431b33862da52a5187e696d222e25423a166f56ad847fe117b1aa4984bb71efb6764b8cffcc1c92f3384a50bf74e53105890625faa512942314547c70cdb164cef84e3f5f0f27ab89731bf56b12bb109297510ad1a831a8a7faff1476905f0c38414ab82c2dab8d46e0e74868d9b22da1d02b02ec937de6b15c99516a29cdfe095b6f12b8d763a660c0a066a39ca3d68c5ad54de268820e72f7d2d3fc5ccca00c0e0753a666382c2b983f76a93c7f3faa780f7a7a72c0839caa13662a730d35be8ca2012bcd3844d000cb02099ff28a04ddd3264016263fd9a00886fb0cabc8f90b3f61b72325467036488868ecebb28f2556aab6dec791956fa168cf06577aa6bfc170c76e7a4361cdcbe45ad0b3769117a562d08a6eb5fe0c6583c76753381bcca4fd3504186a450453c2d63e0f5e9e572d56ba4a109a08a6fc28f30949b078c83467c85cf0b77cc5150a6e08bc0d69949f8e3d56b1e107ef64f8cb2ff529882afd93bfe40ee9882a822934a8b045373ff017fa034c415ff007ebfc72c9b694c35214ea3c6a97ad9485705ea7c01d64236c59cd9168b26df7d829d01a93903a8c5258b5d5c6b9420a5a3948e2c6673b7b53e073549ef51e0bd4cad44294e80d20628a2936c020205006f19b50d0e9aa193c13bf904584566c6041940851d72b8291471977a8189d77cc90a00c89d35804056d0e864bbe15e6b06050add46de49c3200b4d00439fbd9a84f5149b02803ef04e268021340100000

/-- α^i. -/
def gfExp (i : Nat) : Nat := (gfPowers >>> (10 * (i % 1023))) % 1024

/-- The exponent of an element other than 0. -/
def gfLog (a : Nat) : Nat := (gfLogs >>> (10 * a)) % 1024

/-- Product in GF(2^10). -/
def gfMul (a b : Nat) : Nat := if a == 0 || b == 0 then 0 else gfExp (gfLog a + gfLog b)

/-- The inverse in GF(2^10) of an element other than 0. -/
def gfInv (a : Nat) : Nat := gfExp (1023 - gfLog a)

/-- A polynomial, highest coefficient first, at x. -/
def gfEval (x : Nat) (p : List Nat) : Nat := p.foldl (fun acc c => gfMul acc x ^^^ c) 0

/-- Product of a polynomial, lowest coefficient first, with (x − r). -/
def gfTimesRoot (p : List Nat) (r : Nat) : List Nat :=
  List.zipWith (· ^^^ ·) (0 :: p) (p.map (gfMul r) ++ [0])

/-- g(x), lowest coefficient first: the product of (x − α^i) for i from 0 to 67 (R281). -/
def rsGenerator : List Nat := (List.range 68).foldl (fun p i => gfTimesRoot p (gfExp i)) [1]

/-- One step of the division by g(x): the remainder, highest coefficient first, after the next symbol. -/
def rsStep (g : List Nat) (r : List Nat) (sym : Nat) : List Nat :=
  let fb := sym ^^^ r.headD 0
  List.zipWith (fun a c => a ^^^ gfMul fb c) (r.drop 1 ++ [0]) g

/-- The 68 parity symbols of 782 information symbols, coefficient of x^67 first (R281). -/
def rsParity (info : List Nat) : List Nat := info.foldl (rsStep ((rsGenerator.take 68).reverse)) (List.replicate 68 0)

/-! ### Decoding -/

/-- The exponents of α in the terms of a codeword of 850 symbols, coefficient of x^849 first: for each symbol other than 0 that of
the symbol and that of its place. -/
def rsTerms (c : List Nat) : List (Nat × Nat) := c.zipIdx.filterMap (fun q => if q.1 == 0 then none else some (gfLog q.1, 849 - q.2))

/-- The syndromes of a codeword: its value at α^i for i from 0 to 67 (R281). -/
def rsSyndromes (c : List Nat) : List Nat :=
  (List.range 68).map (fun i => (rsTerms c).foldl (fun a q => a ^^^ gfExp (q.1 + i * q.2)) 0)

/-- Berlekamp–Massey: error locator, last locator, length, shift and last discrepancy. -/
structure RsBm where
  lam : List Nat
  old : List Nat
  len : Nat
  shift : Nat
  disc : Nat

/-- One step of Berlekamp–Massey on syndrome n. -/
def rsBmStep (syn : List Nat) (s : RsBm) (n : Nat) : RsBm :=
  let d := (List.range (s.len + 1)).foldl (fun a i => a ^^^ gfMul (s.lam.getD i 0) (if i ≤ n then syn.getD (n - i) 0 else 0)) 0
  if d == 0 then { s with shift := s.shift + 1 }
  else
    let q := gfMul d (gfInv s.disc)
    let t := List.replicate s.shift 0 ++ s.old.map (gfMul q)
    let n' := max s.lam.length t.length
    let lam := (List.range n').map (fun i => s.lam.getD i 0 ^^^ t.getD i 0)
    if 2 * s.len ≤ n then ⟨lam, s.lam, n + 1 - s.len, 1, d⟩ else { s with lam := lam, shift := s.shift + 1 }

/-- A polynomial, lowest coefficient first, at x. -/
def gfEvalLow (x : Nat) (p : List Nat) : Nat := gfEval x p.reverse

/-- The codeword within 34 symbols of a received word, and how many symbols differ; none where there is no such codeword
(R281, R284). Symbols are given from the coefficient of x^849 down. -/
def rsDecode (c : List Nat) : Option (List Nat × Nat) :=
  let syn := rsSyndromes c
  if syn.all (· == 0) then some (c, 0)
  else
    let b := (List.range 68).foldl (rsBmStep syn) ⟨[1], [1], 0, 1, 1⟩
    let omega := (List.range 68).map (fun k =>
      (List.range (k + 1)).foldl (fun a i => a ^^^ gfMul (b.lam.getD i 0) (syn.getD (k - i) 0)) 0)
    let deriv := b.lam.zipIdx.map (fun x => if x.2 % 2 == 1 then x.1 else 0) |>.drop 1
    let fixed := c.zipIdx.map (fun x =>
      let e := 849 - x.2
      let inv := gfExp (1023 - e % 1023)
      if gfEvalLow inv b.lam == 0 then
        x.1 ^^^ gfMul (gfExp e) (gfMul (gfEvalLow inv omega) (gfInv (gfEvalLow inv deriv)))
      else x.1)
    let errs := (List.zip c fixed).countP (fun x => x.1 != x.2)
    if errs ≤ 34 && (rsSyndromes fixed).all (· == 0) then some (fixed, errs) else none

/-! ### Frames -/

/-- Ten-bit symbols of a bit list, first bit of each most significant; `n` of them. -/
def symbolsOf : Nat → List Bool → List Nat
  | 0, _ => []
  | n + 1, l => natOfBits (l.take 10) :: symbolsOf n (l.drop 10)

/-- The bits of ten-bit symbols. -/
def symbolBits (l : List Nat) : List Bool := l.flatMap (fun v => (List.range 10).map (fun i => v.testBit (9 - i)))

/-- Every tenth element from the j-th. -/
def everyTenth : Nat → List Nat → List Nat
  | _, [] => []
  | 0, a :: r => a :: everyTenth 9 r
  | j + 1, _ :: r => everyTenth j r

/-- Lists read across: the first `n` of each, in turn. -/
def interleave : List (List Nat) → Nat → List Nat
  | _, 0 => []
  | ls, n + 1 => ls.map (fun l => l.headD 0) ++ interleave (ls.map (fun l => l.drop 1)) n

/-- The encoded frame of an information area of 9,775 octets (R281). -/
def encodeFrame (info : Octets) : Octets :=
  let syms := symbolsOf 7820 (bitsOfOctets info)
  info ++ octetsOfBits 850 (symbolBits (interleave ((List.range 10).map (fun j => rsParity (everyTenth j syms))) 68))

/-- What decoding a frame gave: information area, corrected symbols by codeword, uncorrectable codewords (R284). -/
structure FrameDecode where
  info : Octets
  corrected : List Nat
  bad : Nat

/-- A descrambled frame decoded: a codeword past correction is left as received (R284). -/
def decodeFrame (x : Octets) : FrameDecode :=
  let syms := symbolsOf 8500 (bitsOfOctets x)
  let words := (List.range 10).map (fun j =>
    let c := everyTenth j (syms.take 7820) ++ everyTenth j (syms.drop 7820)
    match rsDecode c with
    | some r => (r.1.take 782, some r.2)
    | none => (c.take 782, none))
  { info := octetsOfBits 9775 (symbolBits (interleave (words.map Prod.fst) 782)),
    corrected := words.filterMap Prod.snd, bad := words.countP (fun w => w.2.isNone) }

/-- The scrambler over bits from bit 40 on, with its register (R282). -/
def scrambleBits : Nat → List Bool → List Bool
  | _, [] => []
  | s, b :: r =>
    let fb := (s.testBit 0 != s.testBit 2) != (s.testBit 11 != s.testBit 15)
    (b != s.testBit 15) :: scrambleBits ((2 * s + fb.toNat) % 65536) r

/-- A frame scrambled or descrambled: the same operation (R282). -/
def scrambleFrame (x : Octets) : Octets :=
  x.take 5 ++ octetsOfBits (x.length - 5) (scrambleBits 0xFFFF (bitsOfOctets (x.drop 5)))

/-- Five-bit units of a bit list, first bit of each most significant; `n` of them (R283). -/
def unitsOfBits : Nat → List Bool → List Nat
  | 0, _ => []
  | n + 1, l => natOfBits (l.take 5) :: unitsOfBits n (l.drop 5)

/-- Every eighth element from the j-th. -/
def everyEighth : Nat → List Nat → List Nat
  | _, [] => []
  | 0, a :: r => a :: everyEighth 7 r
  | j + 1, _ :: r => everyEighth j r

/-- The units that a scrambled frame puts on the logical lanes, by lane: unit u on lane u mod 8 (R283). -/
def laneCut (x : Octets) : List (List Nat) :=
  let u := unitsOfBits 17000 (bitsOfOctets x)
  (List.range 8).map (fun j => everyEighth j u)

/-- The frame that the units of the logical lanes make (R283). -/
def laneJoin (lanes : List (List Nat)) : Octets :=
  octetsOfBits 10625 ((interleave lanes 2125).flatMap (fun v => (List.range 5).map (fun i => v.testBit (4 - i))))

/-- The frame alignment signal (R279). -/
def fasOctets : Octets := [0xE6, 0xAC, 0xEC, 0xD5, 0xB3]

/-- The FAS words of logical lanes 0 to 7 (R283). -/
def fasWords : List Nat := [0b11100, 0b11010, 0b10110, 0b01110, 0b11001, 0b10101, 0b01101, 0b10011]

/-- The overhead fields of a frame that carry something (R279). -/
structure Overhead where
  mfas : Nat
  bip : Nat
  bdi : Bool
  bei : Nat
  bue : Nat
  tti : Nat
  mch : Nat
  pt : Nat
  otag : Nat
  kep : Nat

/-- The information area of a frame (R279, R280). -/
def infoArea (o : Overhead) (payload : Octets) : Octets :=
  fasOctets ++ [BitVec.ofNat 8 o.mfas] ++ beBytes 2 o.bip ++
    [BitVec.ofNat 8 ((if o.bdi then 128 else 0) + o.bei % 32), BitVec.ofNat 8 (o.bue % 16), BitVec.ofNat 8 o.tti,
     BitVec.ofNat 8 o.mch, BitVec.ofNat 8 o.pt, BitVec.ofNat 8 o.otag, BitVec.ofNat 8 o.kep] ++ zeros 50 ++ fitTo 9710 0 payload

/-- The overhead of an information area; reserved bits are ignored (R279). -/
def overheadOf (i : Octets) : Overhead :=
  { mfas := octetAt 5 i, bip := beAt 6 2 i, bdi := decide (128 ≤ octetAt 8 i), bei := octetAt 8 i % 32, bue := octetAt 9 i % 16,
    tti := octetAt 10 i, mch := octetAt 11 i, pt := octetAt 12 i, otag := octetAt 13 i, kep := octetAt 14 i }

/-- XOR of the 16-bit words of an octet string, the last padded with 0. -/
def xorWords : Octets → Nat
  | [] => 0
  | [a] => a.toNat * 256
  | a :: b :: r => (a.toNat * 256 + b.toNat) ^^^ xorWords r

/-- BIP-16 of an information area: octets 8 to 9,774 (R288). -/
def bip16 (info : Octets) : Nat := xorWords ((info.take 9775).drop 8)

/-- Bits that differ between two 16-bit values (R288). -/
def bipViolations (a b : Nat) : Nat := (List.range 16).countP (fun i => a.testBit i != b.testBit i)

end Sys2Proof.Machine
end

