-- ==== Sys2Proof/Machine/Transport.lean ====
section
/-! DEFINITION. Streams as a whole: opening, failure, the erase of a key slot under them, and the admission of items to
outputs (R255, R256, R261, R301, R322, R324, R348). -/

namespace Sys2Proof.Machine

/-- Buffers on which a context has a hold: held segments, stored segments, the item in assembly (R311, R319, R321). -/
def ctxBufs (c : Ctx) : List (Nat × Nat × Nat) :=
  c.held.flatMap heldBufs ++ c.stored.filterMap StoredSeg.buf ++ (c.item.bind RxItem.buf).toList

/-- The writer is a local ingress (R256). -/
def isLocalIn : Writer → Bool
  | .localIn _ => true
  | _ => false

/-- Two items wait in one queue of requests (R256). -/
def sameQueue (i j : Item) : Bool :=
  i.id != j.id && i.part == j.part && i.cls == j.cls && i.outs.map Prod.fst == j.outs.map Prod.fst

/-- A line port without the OPENs and retransmissions of a context (R317, R324). -/
def dropSends (k : CtxKey) (l : LinePortState) : LinePortState :=
  { l with controls := l.controls.filter (fun c => c.ctx != k || c.reset.isSome), retx := l.retx.filter (fun x => x.1 != k) }

/-- A segment has a body or an acknowledgement block under a slot. -/
def sealedUnder (slot : Nat) (b : SegBuild) : Bool := b.keySlot == some slot || b.blockSlot == some slot

/-- A line port with what is sealed under a slot and not yet on its way withdrawn: segments, acknowledgement blocks, and RESETs that
have drawn a key of it (R348, R351). -/
def withdrawSeals (slot : Nat) (l : LinePortState) : LinePortState :=
  { l with
    sealing := l.sealing.map (fun b => { b with withdrawn := b.withdrawn || sealedUnder slot b }),
    late := l.late.filter (fun b => !(sealedUnder slot b)),
    controls := l.controls.filter (fun c => !(c.reset.any (fun r => r.2.slot == slot))) }

namespace State

/-! ### The end of a stream (R322, R324) -/

/-- A RESET of a context joins its line port's control segments, under the next invocation of its slot; none where no key is
left (R322). -/
def queueReset (s : State) (c : Ctx) (st : Status) : State :=
  match s.slotFor c.part c.key.stream with
  | none => s
  | some n =>
    match s.takeInvocation (lineDie c.line) n with
    | (t, some k) => t.updLine c.line (fun l => { l with controls := l.controls ++ [⟨c.key, c.part, c.cls, c.incarnation, some (st, k)⟩] })
    | (t, none) => t

/-- What a context still has to send leaves every line port: OPENs and retransmissions (R317, R324). -/
def unqueueCtx (s : State) (k : CtxKey) : State :=
  { s with lines := s.lines.map (dropSends k) }

/-- Items queued or waiting for a context (R324). -/
def ctxItems (s : State) (k : CtxKey) : List Nat := (s.sw.items.filter (fun i => loadKey i.load == some k)).map Item.id

/-- A context in OPEN fails: holds released, queued items dropped, everything outstanding on it ended, an event (R322,
R324). -/
def failStream (s : State) (k : CtxKey) (st : Status) (reset : Bool) : State :=
  match s.ctx k with
  | none => s
  | some c =>
    if c.state != .open then s
    else
      let s := if reset then s.queueReset c st else s
      let s := (s.updCtx k (fun x => { x with
        state := .failed st, held := [], sending := none, ops := [], stored := [], item := none, waitBuffer := none,
        recordDue := none, arrivals := 0, firstArrival := none })).unqueueCtx k
      let s := (ctxBufs c).foldl decRef s
      let s := (s.ctxItems k).foldl dropItem s
      let s := (s.bumpPart c.part 8).raise 0x0701 (some c.part) (oct 1 ++ leBytes 4 k.stream ++ oct (statusCode st))
      let s := c.ops.foldl (fun s o => s.answerOp o.origin st []) s
      let s := s.failPealsOn k st
      if k.accepted && c.unanswered == 0 then s.hand (.acceptedContextFree k) else s

/-- Every OPEN stream that a key slot seals fails (R322, R348). -/
def failSlot (s : State) (slot : Nat) (st : Status) : State :=
  ((s.ctxs.filter (fun c => c.state == .open && s.slotFor c.part c.key.stream == some slot)).map Ctx.key).foldl
    (fun s k => s.failStream k st (st == .keyErased)) s

/-- A line port loses the line keys made from a slot, those it opens with among them (R342, R348). -/
def loseLineKeys (s : State) (m : Nat) : State := (s.dropLineKey m).updLine m (fun l => { l with rx := { l.rx with keys := [] } })

/-- A key slot is erased: its keys go, segments not yet on their way under it are withdrawn, line ports lose the line keys made
from it, and its streams fail (R322, R348). -/
def eraseSlot (s : State) (slot : Nat) : State :=
  match s.keySlot slot with
  | none => s
  | some k =>
    let s := s.eraseKeys slot
    if k.state == .empty then s
    else
      let s : State := { s with lines := s.lines.map (withdrawSeals slot) }
      if k.usage == 2 then (s.conf.lines.filter (fun r => r.keySlot == slot)).foldl (fun (s : State) (r : LineRec) => s.loseLineKeys r.port) s
      else s.failSlot slot .keyErased

/-- Slots of a partition are erased, those that have held nothing yet among them (R340, R347, R348). -/
def eraseSlots (s : State) (p : Nat) (slots : List Nat) : State :=
  slots.foldl (fun s n => if (s.keySlot n).isSome then s.eraseSlot n
    else s.putSlot { emptySlot n p with generation := (s.keys.knells + 1) % 65536 }) s

/-! ### Opening (R301, R322) -/

/-- A 16-bit incarnation from the DRBG, different from the last; drawn again where it is equal (R322). -/
def drawIncarnation (last : Option Nat) : Nat → State → Option (Nat × State)
  | 0, _ => none
  | f + 1, s => do
    let r ← s.drbg 2
    if some (beNat r.1) == last then drawIncarnation last f r.2 else pure (beNat r.1, r.2)

/-- A context in IDLE binds to a site on a line port and opens; its OPEN waits for a slot as sequence 0 (R301, R307, R322). -/
def openCtx (s : State) (c : Ctx) (site line cls inc : Nat) : State :=
  let h : HeldSeg := { seq := 0, body := .openBody cls 0 0, firstSent := none, lastSent := 0, retries := 0, queued := true }
  let d := { Ctx.fresh c.part c.key.stream with
    state := .open, site := site, line := line, rxLine := line, incarnation := inc, cls := cls, openTime := s.now, sendNext := 1,
    held := [h], ops := c.ops }
  (s.putCtx d).updLine line (fun l => { l with controls := l.controls ++ [⟨c.key, c.part, cls, inc, none⟩] })

/-- An item reaches its stream: an IDLE one opens; the status with which the item ends where it cannot (R301, R322, R324,
R366). -/
def reachStream (s : State) (i : Item) : Except Status State :=
  match i.load, loadKey i.load with
  | .stream kind _ site _, some k =>
    match s.ctx k with
    | none => .error .streamFailed
    | some c =>
      match c.state with
      | .failed st => .error st
      | .open => if c.site == site then .ok (s.updItem i.id (fun x => { x with cls := c.cls })) else .error .notPermitted
      | .idle =>
        if kind == 3 || !s.quartz.set then .error .streamFailed
        else match drawIncarnation (if c.openTime == 0 then none else some c.incarnation) 64 s with
          | none => .error .entropyFail
          | some r => .ok (r.2.openCtx c site ((i.outs.head?.map (fun o => o.1 - 64)).getD 0) i.cls r.1)
  | _, _ => .ok s

/-! ### Items that end (R256, R261, R322, R324) -/

/-- An item ends before its output takes it: what it was made for learns the status. -/
def endItem (s : State) (i : Item) (st : Status) : State :=
  let s := s.dropItem i.id
  match i.load with
  | .stream 2 stream _ b =>
    let k := origKey stream
    let tag := BitVec.ofNat 32 (beAt 4 4 b)
    match (s.ctx k).bind (fun c => c.ops.find? (fun o => o.tag == tag)) with
    | some o => (s.updCtx k (fun c => { c with ops := c.ops.filter (fun x => x.tag != tag) })).answerOp o.origin st []
    | none => s
  | .stream _ _ _ _ =>
    match i.origin with
    | .peal p g n => s.failPeal p g n st none
    | _ => s
  | .frame _ _ _ b =>
    let tag := BitVec.ofNat 32 (beAt 4 4 b)
    match s.nodeOps.find? (fun o => o.part == i.part && o.tag == tag && o.origin == i.origin) with
    | some o => ({ s with nodeOps := s.nodeOps.filter (fun x => x.tag != tag) }).answerOp o.origin st []
    | none => s

/-! ### Admission (R255, R256) -/

/-- Tests 1 and 2 of every entry: those that fail are dropped and counted; a stream whose item is dropped fails (R255,
R261, R322). -/
def testEntries (s : State) (i : Item) : State :=
  i.outs.foldl (fun s o =>
    if !(s.entryMapped i o) then (s.bump (.outPort i.part o.1 1)).dropEntry i.id o.1
    else if !(s.outUp o.1) then
      let s := s.bump (.outPort i.part o.1 2)
      match loadKey i.load with
      | none => s.dropEntry i.id o.1
      | some k =>
        let s := s.failStream k .streamFailed false
        match s.item i.id with
        | some j => s.endItem j .streamFailed
        | none => s
    else s) s

/-- An item for an OPEN stream is of the stream's class (R301). -/
def streamClass (s : State) (i : Item) : State :=
  match (loadKey i.load).bind s.ctx with
  | some c => if c.state == .open then s.updItem i.id (fun x => { x with cls := c.cls }) else s
  | none => s

/-- An item passes tests 3 to 5, or waits, or is refused (R255, R256). -/
def admitItem (s : State) (id : Nat) : State :=
  match s.item id with
  | none => s
  | some i0 =>
    if i0.stage != .offered && i0.stage != .wantsBuffer then s
    else
      let s := (s.streamClass i0).testEntries i0
      match s.item id with
      | none => s
      | some i =>
        let fresh := i.stage == .offered
        let behind := !(isLocalIn i.writer) &&
          s.sw.items.any (fun j => j.stage == .wantsBuffer && sameQueue i j && (fresh || decide (j.id < i.id)))
        match if behind then none else s.placeItem i with
        | none =>
          if isLocalIn i.writer then (i.outs.foldl (fun s o => s.bump (.outPort i.part o.1 0)) s).endItem i .quota
          else if !fresh then s
          else match s.reachStream i with
            | .error st => s.endItem i st
            | .ok s =>
              (s.updItem id (fun x => { x with stage := .wantsBuffer })).bump
                (.die i.part ((i.outs.head?.map (fun o => dieOf o.1)).getD 0) 0)
        | some k =>
          match s.reachStream i with
          | .error st => s.endItem i st
          | .ok s =>
            let s := match s.item id with
              | some j => s.giveBuffer j k
              | none => s
            if fresh then s else s.retest i.part ((i.outs.head?.map (fun o => dieOf o.1)).getD 0)

end State

/-! ### Meanings -/

/-- ITEM_ADMISSION (R255, R256, R322). -/
def execItemAdmission (item : Nat) (s : State) : Host.Outcome State Fault Refusal := .next (s.admitItem item)

/-- KEY_GRANT_REQUEST (R339): a line die asks for its next block; where the slot is EXHAUSTED its streams fail (R322). -/
def execKeyGrantRequest (die : Fin 2) (slot : Nat) (s : State) : Host.Outcome State Fault Refusal :=
  let s := s.askBlock die slot
  .next (if ((s.keySlot slot).map KeySlot.state) == some .exhausted then s.failSlot slot .keyExhausted else s)

/-- ACCEPTED_CONTEXT_FREE (R322): a FAILED accepted context whose items are all answered and whose holds are released is
free. -/
def execAcceptedContextFree (k : CtxKey) (s : State) : Host.Outcome State Fault Refusal :=
  match s.ctx k with
  | some c =>
    .next (match c.state with
      | .failed _ => if k.accepted && c.unanswered == 0 && (ctxBufs c).isEmpty then s.dropCtx k else s
      | _ => s)
  | none => .next s

end Sys2Proof.Machine
end

