-- ==== Sys2Proof/Machine/LineTx.lean ====
section
/-! DEFINITION. Sending on a line: the choice of a slot's segment, its body and acknowledgement block, its seal, and the
frame that carries it (R265, R266, R269 to R274, R278 to R282, R287 to R292, R305 to R313, R331 to R333). -/

namespace Sys2Proof.Machine

/-! ### Octets of a segment (R305 to R307) -/

/-- A segment header (R305). -/
def segHeader (kind flags epoch stream seq inc slot a d : Nat) (salt : Octets) (counter : Nat) : Octets :=
  [0x01, BitVec.ofNat 8 kind, BitVec.ofNat 8 flags, BitVec.ofNat 8 epoch] ++ beBytes 4 stream ++ beBytes 4 seq ++ beBytes 2 inc ++
    beBytes 2 slot ++ beBytes 2 a ++ beBytes 2 d ++ fitTo 4 0 salt ++ beBytes 8 counter

/-- A piece with its header (R307). -/
def pieceBytes (p : Piece) : Octets :=
  [BitVec.ofNat 8 p.kind, BitVec.ofNat 8 ((if p.first then 1 else 0) + (if p.last then 2 else 0))] ++ beBytes 2 p.octets.length ++
    beBytes 4 p.itemLength ++ p.octets

/-- The plaintext of a body (R307). -/
def bodyBytes : SegBody → Octets
  | .data ps => ps.flatMap pieceBytes
  | .openBody cls secs ns => [0x01, 0, BitVec.ofNat 8 cls] ++ zeros 5 ++ beBytes 8 secs ++ beBytes 4 ns ++ zeros 4
  | .reset st secs ns => [0x02, BitVec.ofNat 8 (statusCode st), 0] ++ zeros 5 ++ beBytes 8 secs ++ beBytes 4 ns ++ zeros 4

/-- Kind of the segment that carries a body (R305). -/
def bodyKind : SegBody → Nat
  | .data _ => 1
  | _ => 3

/-- The 256 bits of a record's bitmap: bit i set when sequence cumulative + 1 + i has been received (R306). -/
def ackBitmap (c : Ctx) : Octets :=
  (List.range 32).map (fun j => BitVec.ofNat 8 (((List.range 8).filter (fun i =>
    c.stored.any (fun x => x.marked && serialDiff 32 x.seq c.cumulative == 1 + 8 * j + i))).map (2 ^ ·)).sum)

/-- A sequence lies in a direction's window (R310). -/
def windowOpen (c : Ctx) : Bool := decide (serialDiff 32 c.sendNext c.sendBase < min c.peerWindow (2 ^ 30))

/-- What a frame slot carries, as if no record were due (R265, R272, R313). -/
inductive SlotUse where
  /-- The control segment at this place of the port's list. -/
  | control (i : Nat)
  /-- A retransmission of a class. -/
  | again (k : CtxKey) (seq cls : Nat)
  /-- A new DATA segment of a context, from the queue of a class and partition. -/
  | fresh (k : CtxKey) (cls : Nat)
  deriving DecidableEq, Repr

namespace State

/-! ### Who may use a slot (R269 to R271) -/

/-- Owner of the entry in force on a line port; none where it is shared (R271). -/
def slotOwner (s : State) (m : Nat) : Option Nat :=
  match s.gateNow (64 + m) with
  | some (e :: _, _) => if e.owner == 0xFF then none else some e.owner
  | _ => none

/-- A partition may use the slot that starts now (R271). -/
def mayUse (s : State) (m p : Nat) : Bool :=
  match s.slotOwner m with
  | some q => p == q
  | none => !(((s.conf.partOf p).map PartRec.isolated).getD false)

/-- The entry in force opens the class (R265, R271). -/
def slotOpens (s : State) (m c : Nat) : Bool :=
  match s.gateNow (64 + m) with
  | some (e :: _, _) => e.mask.testBit c
  | _ => true

/-- The class is open, and the slot ends before its gate closes; a run also ends where the next entry has another owner (R270). -/
def slotFits (s : State) (m c : Nat) : Bool :=
  match s.gateNow (64 + m) with
  | none => true
  | some (t, spent) =>
    match t with
    | [] => true
    | e :: _ =>
      let ok := fun (x : GateEntry) => x.mask.testBit c && x.owner == e.owner
      e.mask.testBit c && (match runLeft ok t spent with
        | none => true
        | some n => decide (50 * 2 ^ 28 ≤ n))

/-! ### Records due (R312, R313) -/

/-- The line port that carries a context's records: the one that R253 picks toward its peer (R313). -/
def ackLine (s : State) (c : Ctx) : Nat := (pickFlow c.part c.key.stream (s.lineCands c.part c.site)).getD c.rxLine

/-- Contexts with a record due on a line port whose partition may use the slot, in the order in which it became due. -/
def dueOn (s : State) (m : Nat) : List Ctx :=
  if (s.line m).tx.key.isNone then []
  else sortBy (fun a b => decide (a.recordDue.getD 0 < b.recordDue.getD 0) || (a.recordDue == b.recordDue && decide (a.part ≤ b.part)))
    (s.ctxs.filter (fun c => c.state == .open && c.recordDue.isSome && s.ackLine c == m && s.mayUse m c.part))

/-- A record built from a context at the start of its slot on a line port (R306, R313, R320). -/
def ackRecord (s : State) (m : Nat) (c : Ctx) : Octets :=
  let free := s.freeShare c.part (4 + lineDie c.rxLine) 0
  let delay := min (rneDiv (((s.line m).slotAt : Int) - c.lastArrival) 2).toNat 0xFFFFFFFF
  beBytes 4 (c.key.stream + (if c.key.accepted then 0 else 2 ^ 31)) ++ beBytes 2 c.incarnation ++ zeros 2 ++
    beBytes 4 c.cumulative ++ beBytes 4 (min (2 ^ 30) (256 + free)) ++ beBytes 4 delay ++ zeros 4 ++ ackBitmap c

/-- The records of contexts are sent: nothing of them is due any more, and the window they told is advertised (R312,
R319, R320). -/
def recordsSent (s : State) (cs : List Ctx) : State :=
  cs.foldl (fun s c =>
    let free := s.freeShare c.part (4 + lineDie c.rxLine) 0
    s.updCtx c.key (fun x => { x with
      recordDue := none, arrivals := 0, firstArrival := none, advertised := min (2 ^ 30) (256 + free) })) s

/-- An acknowledgement block over the segment header given, under the port's line key (R306). -/
def ackBlock (s : State) (m : Nat) (hdr : Octets) (cs : List Ctx) : Octets × State :=
  match (s.line m).tx.key with
  | none => ([], s)
  | some k =>
    let counter := k.a * 2 ^ 32 + (s.line m).tx.used
    let head := [BitVec.ofNat 8 cs.length, BitVec.ofNat 8 (k.a % 256)] ++ zeros 2 ++ beBytes 4 k.nonce ++ beBytes 8 counter ++
      cs.flatMap (s.ackRecord m)
    (head ++ (gcmSeal k.key (k.salt ++ beBytes 8 counter) (hdr ++ head) []).2, (s.useLineKey m).recordsSent cs)

/-- Octets of a block of n records; none for no record (R306). -/
def ackLength (n : Nat) : Nat := if n == 0 then 0 else 32 + 56 * n

/-! ### The choice of a slot (R265, R266, R272, R309, R310) -/

/-- Pieces of the items at the head of a queue that travel on context `k`, with the item of each: `sent` octets of the first
have gone, and `room` octets are left (R309). -/
def packPieces (s : State) (k : CtxKey) : List Nat → Nat → Nat → List (Nat × Piece)
  | [], _, _ => []
  | id :: r, sent, room =>
    match s.item id with
    | none => []
    | some i =>
      if loadKey i.load != some k || room < 9 then []
      else
        let body := loadOctets i.load
        let n := min (body.length - sent) (room - 8)
        let kind := match i.load with
          | .stream kind _ _ _ => kind
          | _ => 0
        let p : Piece := { kind := kind, first := sent == 0, last := sent + n == body.length, itemLength := body.length,
                           octets := i.buf.elim (slice sent n body) (fun b => s.readBuf b sent n), buf := i.buf }
        (id, p) :: (if p.last then packPieces s k r 0 (room - 8 - n) else [])

/-- The pieces of the next DATA segment of a context from its queue on a line port, beside a block of `a` octets (R309). -/
def nextPieces (s : State) (m : Nat) (c : Ctx) (a : Nat) : List (Nat × Piece) :=
  let q := (s.queueOf (64 + m) c.cls c.part).entries
  let sent := match c.sending with
    | some (id, n) => if q.head? == some id then n else 0
    | none => 0
  s.packPieces c.key q sent (9662 - a)

/-- Octets of a segment without its block (R274). -/
def segLength (body : SegBody) : Nat := 48 + (bodyBytes body).length

/-- A held segment of a context. -/
def heldSeg (s : State) (k : CtxKey) (seq : Nat) : Option HeldSeg := (s.ctx k).bind (fun c => c.held.find? (fun h => h.seq == seq))

/-- An item's turn in its stream's direction: none before it waits on another line port (R254, R301). -/
def streamTurn (s : State) (i : Item) (k : CtxKey) : Bool :=
  !(s.sw.items.any (fun j => decide (j.id < i.id) && j.stage == .queued && loadKey j.load == some k && j.outs.map Prod.fst != i.outs.map Prod.fst))

/-- A piece takes its retransmission hold on the buffer of its item, or, where the count is full, on a fresh copy, placed as a new item
for the line port; none while no buffer is free for the copy (R255, R256, R259, R311). -/
def holdPiece (s : State) (m : Nat) (x : Nat × Piece) : Option (Piece × State) :=
  match x.2.buf with
  | none => some (x.2, s)
  | some b =>
    match s.buf b, s.item x.1 with
    | some y, some i =>
      if y.refs < 65535 then some (x.2, (s.incRef b).2)
      else (s.placeItem { i with outs := [(64 + m, 0)] }).map (fun k =>
        let d := 4 + lineDie m
        let a := s.allocBuf i.part d k 1
        let n : Nat × Nat × Nat := (d, k, a.1)
        ({ x.2 with buf := some n }, ((a.2.updBuf n (fun z => { z with fill := y.fill, data := y.data })).bumpPart i.part 4)))
    | _, _ => some ({ x.2 with buf := none }, s)

/-- The pieces of a segment take their holds, in order (R259, R311). -/
def holdPieces (s : State) (m : Nat) : List (Nat × Piece) → Option (List (Nat × Piece) × State)
  | [] => some ([], s)
  | x :: r => do
    let a ← s.holdPiece m x
    let b ← a.2.holdPieces m r
    pure ((x.1, a.1) :: b.1, b.2)

/-- What a class and partition would send: a retransmission first, else a new segment of its head item's context whose window is
open (R259, R272, R309, R310), with its length as if no record were due (R313). -/
def queueHead (s : State) (m c p : Nat) : Option (SlotUse × Nat) :=
  match (s.line m).retx.find? (fun x => (s.ctx x.1).any (fun y => y.part == p && y.cls == c)) with
  | some x => (s.heldSeg x.1 x.2).map (fun h => (.again x.1 x.2 c, segLength h.body))
  | none => do
    let i ← s.headItem (64 + m) c p
    let k ← loadKey i.load
    let x ← s.ctx k
    let ps := s.nextPieces m x 0
    if x.state == .open && windowOpen x && s.streamTurn i k && (s.holdPieces m ps).isSome then
      pure (.fresh k c, segLength (.data (ps.map Prod.snd)))
    else none

/-- Partitions that have anything to send in a class of a line port, ascending. -/
def lineParts (s : State) (m c : Nat) : List Nat :=
  let again := (s.line m).retx.filterMap (fun x => (s.ctx x.1).bind (fun y => if y.cls == c then some y.part else none))
  (List.range 64).filter (fun p => again.contains p || (s.queuedParts (64 + m) c).contains p)

/-- The choice of a slot as if no record were due, and its partition (R265, R266, R272, R313). -/
def lineChoice (s : State) (m : Nat) : Option (Nat × SlotUse) :=
  match (s.line m).controls.findIdx? (fun c => s.mayUse m c.part) with
  | some i => ((s.line m).controls[i]?).map (fun c => (c.part, .control i))
  | none =>
    ([7, 6, 5, 4, 3, 2, 1, 0]).findSome? (fun c =>
      if !(s.slotFits m c) then none
      else
        let ps := (s.lineParts m c).filter (s.mayUse m)
        let order := match s.lastServed (64 + m) c with
          | some l => roundFrom l ps
          | none => ps
        order.findSome? (fun p =>
          match s.queueHead m c p with
          | some (u, l) => if s.tokensFor (64 + m) c l then some (p, u) else none
          | none => none))

/-! ### Frames out (R278 to R282, R287 to R292) -/

/-- OTAG octets and KEP of the next multiframe: the proof of the one just sent (R291). -/
def nextOtag (s : State) (m : Nat) : Octets × Nat × State :=
  let l := s.line m
  let trace := ((s.conf.lineOf m).map LineRec.transmitted).getD []
  match l.tx.key with
  | none => (zeros 256, 0, s)
  | some k =>
    if !s.quartz.set then (zeros 256, 0, s)
    else
      let counter := k.a * 2 ^ 32 + l.tx.used
      let tti := (List.replicate 4 (fitTo 64 0 trace)).flatten
      let aad := tti ++ fitTo 4 0 l.tx.chA ++ fitTo 4 0 l.tx.chB
      let tag := (gcmSeal k.key (k.salt ++ beBytes 8 counter) aad []).2
      (tag ++ beBytes 8 counter ++ beBytes 4 k.nonce ++ zeros 228, k.a % 256, s.useLineKey m)

/-- BDI: the receiver of the port meets a condition of R287. -/
def bdi (s : State) (m : Nat) : Bool :=
  let r := (s.line m).rx
  r.dlos || !r.inFrame || !r.inMulti || (r.dtim && ((s.conf.lineOf m).map LineRec.traceStops).getD false)

/-- A Snare sample of a line frame: overhead and segment header (R63). -/
def snareFrame (s : State) (m : Nat) (received : Bool) (p : Nat) (info : Octets) : State :=
  let k := Config.snareLine m
  if k == 0 then s
  else
    let l := s.line m
    let c := if received then l.snareRx + 1 else l.snareTx + 1
    let s := s.updLine m (fun l => if received then { l with snareRx := c % 2 ^ k } else { l with snareTx := c % 2 ^ k })
    if c % 2 ^ k == 0 then s.takeSample (64 + m) received p (info.take (if octetAt 12 info == 1 then 97 else 65)) else s

/-- A basic frame leaves, with a segment of partition `p` or with idle fill, and the transmit side goes on to the next (R278
to R283, R287 to R292). -/
def sendFrame (s : State) (m p : Nat) (seg : Option Octets) : State :=
  let t := (s.line m).tx
  let trace := ((s.conf.lineOf m).map LineRec.transmitted).getD []
  let mch := if t.mfas % 64 == 0 then octetAt (t.mfas / 64) t.chA else if t.mfas % 64 == 32 then octetAt (t.mfas / 64) t.chB else 0
  let info := infoArea
    { mfas := t.mfas, bip := t.bip, bdi := s.bdi m, bei := min t.bei 31, bue := min t.bue 15, tti := octetAt (t.mfas % 64) trace,
      mch := mch, pt := if seg.isSome then 1 else 0, otag := octetAt t.mfas t.otag, kep := t.kep } (seg.getD [])
  let s := (s.emit (.lineFrame m (laneCut (scrambleFrame (encodeFrame info))))).snareFrame m false p info
  let s := s.updLine m (fun l => { l with tx := { l.tx with mfas := (t.mfas + 1) % 256, bip := bip16 info, bei := 0, bue := 0 } })
  if t.mfas == 255 then
    let o := s.nextOtag m
    o.2.2.updLine m (fun l => { l with tx := { l.tx with
      otag := o.1, kep := o.2.1, chA := l.tx.nextA, chB := l.tx.nextB, nextA := [], nextB := [] } })
  else s

/-- The slot carries idle fill; a slot of an owned entry counts so (R271, R277, R280). -/
def idleFrame (s : State) (m : Nat) : State :=
  let s := match s.slotOwner m with
    | some p => s.bump (.outPort p (64 + m) 6)
    | none => s
  s.sendFrame m 0 none

/-! ### Segments into their slots (R305 to R313, R332) -/

/-- A segment leaves in its frame, counted (R277, R327). -/
def sendSegment (s : State) (m : Nat) (b : SegBuild) : State :=
  let s := (s.bumpBy (.outCls b.part (64 + m) b.cls 0) b.octets.length).bump (.outCls b.part (64 + m) b.cls 1)
  let s := s.bump (.line b.part m 0)
  (if b.again then s.bump (.line b.part m 1) else s).sendFrame m b.part (some b.octets)

/-- The slot of the line key of a port. -/
def lineSlot (s : State) (m : Nat) : Option Nat := (s.conf.lineOf m).map LineRec.keySlot

/-- The classes whose heads wait only for tokens in a slot in which class `c` sends, or none of them: those above it (R265, R277). -/
def countShaped (s : State) (m : Nat) (c : Option Nat) : State :=
  ((List.range 8).filter (fun x => c.all (fun c => decide (c < x)) && s.slotFits m x &&
    ((s.lineParts m x).filter (s.mayUse m)).any (fun p => (s.queueHead m x p).any (fun h => !(s.tokensFor (64 + m) x h.2))))).foldl
    (fun s x => s.bumpBy (.shaperNs (64 + m) x) 50) s

/-- A slot in which nothing could go: the guard band, where a head lacks but the time before its gate closes (R270, R277). -/
def countGuard (s : State) (m : Nat) : State :=
  if (List.range 8).any (fun x => s.slotOpens m x && !(s.slotFits m x) &&
    ((s.lineParts m x).filter (s.mayUse m)).any (fun p => (s.queueHead m x p).any (fun h => s.tokensFor (64 + m) x h.2)))
  then s.bumpBy (.guardNs (64 + m)) 50 else s

/-- A finished segment is in the cipher cores of its slot (R332). -/
def toCipher (s : State) (m : Nat) (b : SegBuild) : State := s.updLine m (fun l => { l with sealing := some b })

/-- A DATA or CONTROL segment of a context, with the block of the records given, on its way to its slot (R305, R306, R309, R313,
R332). -/
def startSegment (s : State) (m : Nat) (c : Ctx) (inc seq : Nat) (body : SegBody) (again : Bool) (held : Bool) (k : SealKey)
    (recs : List Ctx) : State :=
  let pt := bodyBytes body
  let a := ackLength recs.length
  let flags := (if c.key.accepted then 1 else 0) + (if recs.isEmpty then 0 else 2) + (if again then 4 else 0)
  let hdr := segHeader (bodyKind body) flags k.epoch c.key.stream seq inc k.slot a pt.length k.salt k.counter
  let blk := if recs.isEmpty then ([], s) else s.ackBlock m hdr recs
  let ct := gcmSeal k.key (k.salt ++ beBytes 8 k.counter) hdr pt
  let octets := hdr ++ blk.1 ++ ct.1 ++ ct.2
  (blk.2.touchCache (lineDie m) c.part c.key).toCipher m
    { ctx := some c.key, part := c.part, seq := if held then some seq else none, again := again, keySlot := some k.slot,
      blockSlot := if recs.isEmpty then none else s.lineSlot m, cls := c.cls, octets := octets, withdrawn := false }

/-- An ACK segment takes the slot (R305, R306, R313). The class under which it is counted is the model's (log entry 13). -/
def startAck (s : State) (m p : Nat) (recs : List Ctx) : State :=
  let hdr := segHeader 2 2 0 0 0 0 0 (ackLength recs.length) 0 [] 0
  let blk := s.ackBlock m hdr recs
  let octets := hdr ++ blk.1
  blk.2.toCipher m
    { ctx := none, part := p, seq := none, again := false, keySlot := none, blockSlot := s.lineSlot m, cls := 0, octets := octets,
      withdrawn := false }

/-- The key for the next segment of a context on a line port's die; a stream whose slot is EMPTY fails (R303, R322, R338). -/
def sealKeyFor (s : State) (m : Nat) (c : Ctx) : State × Option SealKey :=
  match s.slotFor c.part c.key.stream with
  | none => (s.failStream c.key .keyErased false, none)
  | some n =>
    let r := s.takeInvocation (lineDie m) n
    if r.2.isNone && ((s.keySlot n).map KeySlot.state).getD .empty == .empty then (r.1.failStream c.key .keyErased false, none) else r

/-- The send times and the retry count of a held segment at the start of a slot (R311, R317). -/
def noteSent (s : State) (m : Nat) (k : CtxKey) (seq : Nat) (again : Bool) : State :=
  let t := (s.line m).slotAt
  s.updCtx k (fun c => { c with held := mapWhen (fun h => h.seq == seq) (fun h => { h with
    firstSent := if again then h.firstSent else some t, lastSent := t,
    retries := if again then h.retries + 1 else h.retries, queued := false }) c.held })

/-- A new DATA segment of a context is built: its pieces leave the queue with a hold each, and it is held under the next
sequence (R309, R311). -/
def buildFresh (s : State) (m : Nat) (c : Ctx) (a : Nat) : List Piece × State :=
  let r := (s.holdPieces m (s.nextPieces m c a)).getD ([], s)
  let ps := r.1
  let s := r.2
  let t := (s.line m).slotAt
  let sending := match ps.getLast? with
    | some (id, p) =>
      if p.last then none
      else
        let before := match c.sending with
          | some (j, n) => if j == id then n else 0
          | none => 0
        some (id, before + p.octets.length)
    | none => c.sending
  let h : HeldSeg := { seq := c.sendNext, body := .data (ps.map Prod.snd), firstSent := some t, lastSent := t, retries := 0, queued := false }
  let s := s.updCtx c.key (fun x => { x with
    sendNext := (x.sendNext + 1) % 2 ^ 32, held := x.held ++ [h], sending := sending, line := m })
  (ps.map Prod.snd, (ps.filter (fun x => x.2.last)).foldl (fun s x => s.dropEntry x.1 (64 + m)) s)

/-- The chosen segment is built and sealed; false where no key is left for it, so that the slot is chosen again (R309, R313,
R322, R332). -/
def startUse (s : State) (m : Nat) (u : SlotUse) (recs : List Ctx) : Bool × State :=
  match u with
  | .control i =>
    match (s.line m).controls[i]? with
    | none => (false, s)
    | some w =>
      let s := s.updLine m (fun l => { l with controls := l.controls.eraseIdx i })
      match w.reset with
      | some (st, k) =>
        let c : Ctx := { Ctx.fresh w.part w.ctx.stream with key := w.ctx, cls := w.cls }
        (true, s.startSegment m c w.incarnation 0 (.reset st s.quartz.secs s.quartz.ns) false false k recs)
      | none =>
        match s.ctx w.ctx with
        | none => (false, s)
        | some c =>
          match s.sealKeyFor m c with
          | (t, none) => (false, t)
          | (t, some k) =>
            let again := (c.held.find? (fun h => h.seq == 0)).any (fun h => h.firstSent.isSome)
            let at0 := if again then c.openTime else (s.line m).slotAt / 2
            let body := SegBody.openBody c.cls (at0 / nsPerSec) (at0 % nsPerSec)
            let t := (t.updCtx c.key (fun x => { x with openTime := at0 })).noteSent m c.key 0 again
            (true, t.startSegment m c c.incarnation 0 body again true k recs)
  | .again key seq cls =>
    match s.ctx key, s.heldSeg key seq with
    | some c, some h =>
      let s := (s.updLine m (fun l => { l with retx := l.retx.filter (· != (key, seq)) })).noteServed (64 + m) cls c.part
      match s.sealKeyFor m c with
      | (t, none) => (false, t)
      | (t, some k) =>
        let t := (t.spend (64 + m) cls (segLength h.body)).noteSent m key seq true
        (true, t.startSegment m c c.incarnation seq h.body true true k recs)
    | _, _ => (false, s.updLine m (fun l => { l with retx := l.retx.filter (· != (key, seq)) }))
  | .fresh key cls =>
    match s.ctx key with
    | none => (false, s)
    | some c =>
      match s.sealKeyFor m c with
      | (t, none) => (false, t)
      | (t, some k) =>
        let b := t.buildFresh m c (ackLength recs.length)
        let t := (b.2.noteServed (64 + m) cls c.part).spend (64 + m) cls (segLength (.data b.1))
        (true, t.startSegment m c c.incarnation c.sendNext (.data b.1) false true k recs)

/-- Records that can ride in a segment: those of its partition, as many as the segment's body leaves room for (R306, R309,
R313). -/
def riders (s : State) (u : SlotUse) (recs : List Ctx) : List Ctx :=
  match u with
  | .again k seq _ =>
    match s.heldSeg k seq with
    | some h => recs.take ((9710 - segLength h.body - 32) / 56)
    | none => recs
  | _ => recs

/-- The class of what a slot carries; none for a control segment, which goes ahead of every class (R272). -/
def useClass : SlotUse → Option Nat
  | .control _ => none
  | .again _ _ c => some c
  | .fresh _ c => some c

/-- A slot is filled: an ACK segment where the earliest due record cannot ride in the choice, else the choice (R309, R313). Waits of
classes for tokens, and the guard band, are counted where R272 sends nothing ahead of them (R277). The choice is made again, `fuel`
times at most, where a key is wanting. -/
def fillSlot (s : State) (m : Nat) : Nat → State
  | 0 => s.idleFrame m
  | fuel + 1 =>
    let due := s.dueOn m
    let q := due.head?.map Ctx.part
    let recs := (due.filter (fun c => q == some c.part)).take 64
    match s.lineChoice m, q with
    | some (p, u), some r =>
      if p == r then
        let g := ((useClass u).elim s (fun c => s.countShaped m (some c))).startUse m u (s.riders u recs)
        if g.1 then g.2 else fillSlot g.2 m fuel
      else s.startAck m r recs
    | none, some r => s.startAck m r recs
    | some (_, u), none =>
      let g := ((useClass u).elim s (fun c => s.countShaped m (some c))).startUse m u []
      if g.1 then g.2 else fillSlot g.2 m fuel
    | none, none => ((s.countShaped m none).countGuard m).idleFrame m

/-! ### Isolated entries and late seals (R332, R333) -/

/-- Quartz time in 2^−28 ns at which the owned entry that a line port's slot belongs to began; none where the entry is shared (R269,
R333). -/
def ownedEntry (s : State) (m : Nat) : Option Nat :=
  let t := s.stamp (64 + m) false * 2 ^ 27
  match s.gateAt (64 + m) t with
  | some (e :: _, spent) => if s.lineUp m && e.owner != 0xFF then some (t - spent) else none
  | _ => none

/-- A line port holds 3 cipher cores for the owned entry in force (R333). -/
def holdsCores (s : State) (m : Nat) : Bool :=
  let e := s.ownedEntry m
  e.isSome && (s.line m).isoEntry == e && !(s.line m).isoShort

/-- The port takes its 3 cores: beside those that other ports hold, and those that lower ports have yet to take for an entry that begins
now, at least 4 cores are left shared (R333). -/
def takesCores (s : State) (m : Nat) : Bool :=
  let others := ((List.range 8).map (8 * lineDie m + ·)).filter (· != m)
  let before := others.countP (fun x => s.holdsCores x || (decide (x < m) && (s.ownedEntry x).isSome && s.ownedEntry x != (s.line x).isoEntry))
  decide (4 + 3 * (before + 1) ≤ s.boot.cipher.getD (lineDie m) 0)

/-- The first slot of each owned entry reserves cores, or counts that it cannot; a slot of no owned entry gives them back (R333). -/
def isoSlot (s : State) (m : Nat) : State :=
  let e := s.ownedEntry m
  if e == (s.line m).isoEntry then s
  else
    let short := e.isSome && !(s.takesCores m)
    let s := s.updLine m (fun l => { l with isoEntry := e, isoShort := short })
    if short then s.bump (.cipherIsoShort m) else s

/-- The seal of a slot's segment ends: in time its frame leaves; late, the slot carries idle fill, the case is counted and the
segment waits for the next slot it may use; withdrawn, the slot carries idle fill (R277, R332, R348). -/
def sealEnds (s : State) (m : Nat) (late : Bool) : State :=
  match (s.line m).sealing with
  | none => s
  | some b =>
    let s := s.updLine m (fun l => { l with sealing := none })
    if b.withdrawn then s.idleFrame m
    else if late then
      ((s.updLine m (fun l => { l with late := l.late ++ [b] })).bump (.outPort b.part (64 + m) 7)).idleFrame m
    else s.sendSegment m b

/-- A late segment may use the slot that starts now: a DATA segment in an owned slot only where the entry opens its class (R271, R272,
R332). -/
def lateFits (s : State) (m : Nat) (b : SegBuild) : Bool :=
  s.mayUse m b.part && (octetAt 1 b.octets != 1 || (s.slotOwner m).isNone || s.slotOpens m b.cls)

/-- A late segment goes in this slot; a held one takes this slot's start as its send time (R311, R332). -/
def sendLate (s : State) (m i : Nat) (b : SegBuild) : State :=
  let s := s.updLine m (fun l => { l with late := l.late.eraseIdx i })
  let t := (s.line m).slotAt
  let s := match b.ctx, b.seq with
    | some k, some q => s.updCtx k (fun c => { c with held := mapWhen (fun h => h.seq == q) (fun h => { h with
        firstSent := if b.again then h.firstSent else some t, lastSent := t }) c.held })
    | _, _ => s
  s.sendSegment m b

/-- A frame slot of a line port starts, at the Quartz time that its port's transmit timestamp gives (R265 to R274, R309 to R313, R332,
R333, R371). A seal that has not ended by then is late. -/
def frameSlot (s : State) (m : Nat) : State :=
  if !(s.lineUp m) then s
  else
    let s := s.sealEnds m true
    let s := (s.updLine m (fun l => { l with slotAt := s.stamp (64 + m) false })).isoSlot m
    match (s.line m).late.findIdx? (s.lateFits m) with
    | some i =>
      match (s.line m).late[i]? with
      | some b => s.sendLate m i b
      | none => s.idleFrame m
    | none => s.fillSlot m 64

end State

/-! ### Meanings -/

/-- LINE_FRAME_SLOT (R265, R271, R309, R313). -/
def execLineFrameSlot (m : LinePort) (s : State) : Host.Outcome State Fault Refusal := .next (s.frameSlot m)

/-- SEAL_DONE (R332, R333). -/
def execSealDone (m : LinePort) (late : Bool) (s : State) : Host.Outcome State Fault Refusal := .next (s.sealEnds m late)

end Sys2Proof.Machine
end

