-- ==== Sys2Proof/Machine/Cct.lean ====
section
/-! DEFINITION. The compressed tensor format: header, canonical codes and tiles (R236 to R241). -/

namespace Sys2Proof.Machine

/-- The header of a CCT (R236). -/
structure CctHeader where
  kind : Nat
  rows : Nat
  cols : Nat
  tiles : Nat
  total : Nat
  codebook : List Nat
  counts : List Nat
  symbols : List Nat
  /-- Offset and length of each of the 16 substreams. -/
  subs : List (Nat × Nat)
  index : Nat
  deriving DecidableEq, Repr, Inhabited

/-- Symbols in strictly ascending order within each length (R237). -/
def ascendingBy : List Nat → List Nat → Bool
  | [], _ => true
  | c :: r, s =>
    let a := s.take c
    (a.zip (a.drop 1)).all (fun q => q.1 < q.2) && ascendingBy r (s.drop c)

/-- The header of 480 octets, none when a test of R237 fails. -/
def cctHeader (x : Octets) : Option CctHeader := do
  let kind := octetAt 5 x
  let rows := beAt 8 4 x
  let cols := beAt 12 4 x
  let tiles := beAt 16 4 x
  let total := beAt 20 4 x
  let codebook := fieldsAt 24 2 16 x
  let counts := fieldsAt 56 2 12 x
  let n := beAt 80 2 x
  let symbols := fieldsAt 84 1 n x
  let subs := (List.range 16).map (fun s => (beAt (340 + 8 * s) 4 x, beAt (344 + 8 * s) 4 x))
  let index := beAt 468 4 x
  okIf (x.length ≥ 480 && beAt 476 4 x == crcOf crc32c (slice 0 476 x))
  okIf (beAt 0 4 x == 0x43435431 && octetAt 4 x == 1 && 1 ≤ kind && kind ≤ 4 && zerosAt 6 2 x && zerosAt 82 2 x && zerosAt 472 4 x &&
    rows % 64 == 0 && 64 ≤ rows && rows ≤ 1048576 && cols % 64 == 0 && 64 ≤ cols && cols ≤ 1048576 &&
    1 ≤ tiles && tiles ≤ 262144 && 1 ≤ n && n ≤ 256 && zerosAt (84 + n) (256 - n) x)
  okIf (tiles == rows / 64 * (cols / 64))
  okIf (n == counts.sum)
  okIf ((counts.zipIdx.map (fun q => q.1 * 2 ^ (11 - q.2))).sum ≤ 4096)
  okIf (ascendingBy counts symbols && symbols.eraseDups.length == n)
  okIf (kind != 4 || symbols.all (· ≤ 15))
  okIf (kind == 4 || codebook.all (· == 0))
  let parts := (index, 64 * tiles) :: subs
  okIf (parts.all (fun p => 480 ≤ p.1 && p.1 + p.2 ≤ total) && allPairs (fun a b => !rangesMeet a b) parts)
  okIf (parts.all (fun p => p.1 % 8 == 0))
  some ⟨kind, rows, cols, tiles, total, codebook, counts, symbols, subs, index⟩

/-- The canonical codes: (length, code, symbol) (R238). -/
def canonicalCodes : Nat → Nat → List Nat → List Nat → List (Nat × Nat × Nat)
  | _, _, [], _ => []
  | l, code, c :: r, syms =>
    (syms.take c).zipIdx.map (fun q => (l, code + q.2, q.1)) ++ canonicalCodes (l + 1) (2 * (code + c)) r (syms.drop c)

/-- The codes of a header. -/
def CctHeader.codes (h : CctHeader) : List (Nat × Nat × Nat) := canonicalCodes 1 0 h.counts h.symbols

/-- One symbol from a bit list: tries lengths l, l + 1, …; `fuel` lengths. Answers the symbol, its length and the rest. -/
def readCode (codes : List (Nat × Nat × Nat)) : Nat → Nat → Nat → List Bool → Option (Nat × Nat × List Bool)
  | 0, _, _, _ => none
  | _ + 1, _, _, [] => none
  | f + 1, l, v, b :: r =>
    let v' := 2 * v + b.toNat
    match codes.find? (fun c => c.1 == l && c.2.1 == v') with
    | some c => some (c.2.2, l, r)
    | none => readCode codes f (l + 1) v' r

/-- `n` symbols of a substream with the number of bits they took. -/
def readSymbols (codes : List (Nat × Nat × Nat)) : Nat → List Bool → Option (List Nat × Nat)
  | 0, _ => some ([], 0)
  | n + 1, bs => do
    let (s, l, r) ← readCode codes 12 1 0 bs
    let (ss, k) ← readSymbols codes n r
    some (s :: ss, k + l)

/-- The index entry of tile t: 16 bit offsets (R239). -/
def indexEntry (h : CctHeader) (x : Octets) (t : Nat) : List Nat := fieldsAt (h.index + 64 * t) 4 16 x

/-- The 256 symbols of tile t in substream s; none at a defect (R239, R241). -/
def tileSub (h : CctHeader) (x : Octets) (t s : Nat) : Option (List Nat) := do
  let sub := h.subs.getD s (0, 0)
  let bits := bitsOfOctets (slice sub.1 sub.2 x)
  let start := (indexEntry h x t).getD s 0
  okIf (start ≤ 8 * sub.2 && (t != 0 || start == 0))
  let (ss, k) ← readSymbols h.codes 256 (bits.drop start)
  let stop := start + k
  if t + 1 == h.tiles then
    okIf (stop ≤ 8 * sub.2 && 8 * sub.2 - stop ≤ 7 && (bits.drop stop).all (· == false))
  else okIf (stop == (indexEntry h x (t + 1)).getD s 0)
  some ss

/-- The symbols of tile t, row by row; none at a defect. -/
def tileSymbols (h : CctHeader) (x : Octets) (t : Nat) : Option (List (List Nat)) := do
  let subs ← (List.range 16).mapM (tileSub h x t)
  some ((List.range 64).map (fun r => (List.range 64).map (fun c => (subs.getD (c % 16) []).getD (4 * r + c / 16) 0)))

/-- Format and pattern of a symbol (R236). -/
def symbolElem (h : CctHeader) (s : Nat) : Fmt × Nat :=
  match h.kind with
  | 1 => (.e4m3, s)
  | 2 => (.e5m2, s)
  | 3 => (.int8, s)
  | _ => (.bf16, h.codebook.getD s 0)

/-- Element format of a kind. -/
def CctHeader.fmt (h : CctHeader) : Fmt := (symbolElem h 0).1

/-- The first defective tile of a list. -/
def firstDefect (h : CctHeader) (x : Octets) : List Nat → Option Nat
  | [] => none
  | t :: r => if (tileSymbols h x t).isNone then some t else firstDefect h x r

/-- Octets of the plain matrix of EXPAND, row-major, from decoded tiles (R242). -/
def expandBytes (h : CctHeader) (x : Octets) : Octets :=
  let tiles := (List.range h.tiles).map (fun t => (tileSymbols h x t).getD [])
  (List.range h.rows).flatMap (fun r => (List.range h.cols).flatMap (fun c =>
    let t := c / 64 * (h.rows / 64) + r / 64
    let s := ((tiles.getD t []).getD (r % 64) []).getD (c % 64) 0
    leBytes h.fmt.size (symbolElem h s).2))

/-- Octets of the EXPAND result. -/
def CctHeader.plainSize (h : CctHeader) : Nat := h.rows * h.cols * h.fmt.size

end Sys2Proof.Machine
end

