-- ==== Sys2Proof/Machine/MatrixOps.lean ====
section
/-! DEFINITION. A matrix command: its block (R233), its checks of form (R230, R234) and the product (R188, R189). -/

namespace Sys2Proof.Machine

/-- A matrix command block (R233). -/
structure MatCmd where
  engine : Nat
  strict : Bool
  cct : Bool
  zero : Bool
  aFmt : Nat
  bFmt : Nat
  k : Nat
  /-- 1 SCRATCH, 2 BASALT. -/
  aSpace : Nat
  bSpace : Nat
  cSpace : Nat
  aAddr : Nat
  bAddr : Nat
  cAddr : Nat
  aStride : Nat
  bStride : Nat
  panel : Nat
  firstRow : Nat
  /-- The reserved bits and octets are all 0. -/
  reservedOk : Bool
  deriving DecidableEq, Repr, Inhabited

/-- Reads the 64 octets of a block. -/
def matCmd (x : Octets) : MatCmd :=
  { engine := octetAt 0 x, strict := bitOf (octetAt 1 x) 0, cct := bitOf (octetAt 1 x) 1, zero := bitOf (octetAt 1 x) 2,
    aFmt := octetAt 2 x, bFmt := octetAt 3 x, k := leAt 4 4 x, aSpace := octetAt 8 x, bSpace := octetAt 9 x,
    cSpace := octetAt 10 x, aAddr := leAt 16 8 x, bAddr := leAt 24 8 x, cAddr := leAt 32 8 x, aStride := leAt 40 4 x,
    bStride := leAt 44 4 x, panel := leAt 48 4 x, firstRow := leAt 52 4 x,
    reservedOk := octetAt 1 x < 8 && zerosAt 11 5 x && zerosAt 56 8 x }

/-- A format code of a matrix operand: 0x01 to 0x06. -/
def matFmt (c : Nat) : Option Fmt := if 1 ≤ c && c ≤ 6 then fmtOfCode c else none

/-- Size of an operand format code. -/
def matSize (c : Nat) : Nat := match matFmt c with
  | some f => f.size
  | none => 1

/-- Two operand formats form a pair of R230. -/
def matPair (a b : Fmt) : Bool := (a == .int8) == (b == .int8)

/-- Group width of R188 and R230. -/
def groupWidth (a b : Fmt) : Nat := if a.size == 1 && b.size == 1 then 2 else 1

/-- Last offset that R233 gives an operand in scratch: 8 MiB. -/
def scratchSize : Nat := 2 ^ 23

/-- Step 1 of R234: reserved fields and values, and R230 and R233 as far as the block alone shows them. -/
def matFormOk (m : MatCmd) : Bool :=
  match matFmt m.aFmt with
  | none => false
  | some fa =>
    m.reservedOk && m.engine < 4 && 1 ≤ m.k && m.k ≤ 16384 && (m.aSpace == 1 || m.aSpace == 2) && (m.bSpace == 1 || m.bSpace == 2) &&
    m.cSpace == 1 && (m.aSpace == 2 || m.aAddr ≤ scratchSize) && (m.bSpace == 2 || m.bAddr ≤ scratchSize) && m.cAddr ≤ scratchSize &&
    m.aAddr % fa.size == 0 && m.cAddr % 4 == 0 && m.aStride % fa.size == 0 && m.k * fa.size ≤ m.aStride &&
    (if m.cct then m.bFmt == 0 && m.bStride == 0 && m.k % 64 == 0 && m.firstRow % 64 == 0
     else m.panel == 0 && m.firstRow == 0 &&
      (match matFmt m.bFmt with
       | none => false
       | some fb => matPair fa fb && m.bStride % fb.size == 0 && 64 * fb.size ≤ m.bStride &&
           m.k % groupWidth fa fb == 0))

/-- The exact sum of a group of products, and whether an invalid operation arose (R188, R190). -/
def groupSum (strict : Bool) : List (Num × Bool) → Num × Bool
  | [] => (.zero, false)
  | [p] => p
  | p :: r =>
    let t := groupSum strict r
    let s := addNum strict p.1 t.1
    (s.1, p.2 || t.2 || s.2)

/-- One group of R188: c plus the exact sum of its products, rounded once; a NaN operand traps. -/
def groupStep (strict : Bool) (c : FpRes) (as bs : List Num) : FpRes :=
  if c.val.isNan then c
  else if as.any Num.isNan || bs.any Num.isNan then c.after ⟨.nan, .none, some 1⟩
  else
    let t := groupSum strict (List.zipWith mulNum as bs)
    if t.2 then c.after (invalidRes strict) else c.after (fpResult strict (addNum strict c.val t.1))

/-- The accumulation of one C element over `n` groups of g operands along k (R188). -/
def dotFp (strict : Bool) (g : Nat) : Nat → FpRes → List Num → List Num → FpRes
  | 0, c, _, _ => c
  | n + 1, c, as, bs => dotFp strict g n (groupStep strict c (as.take g) (bs.take g)) (as.drop g) (bs.drop g)

/-- The C element at the start of a command: +0 with the zero flag, else its value; a NaN there traps (R230). -/
def startC (strict zero : Bool) (old : Nat) : FpRes :=
  if zero then ⟨.zero, .none, none⟩
  else
    let x := operandNum strict .fp32 old
    if x.isNan then ⟨.nan, .none, some 1⟩ else ⟨x, .none, none⟩

/-- One element of a floating-point command: pattern, flags, trap cause. -/
def cellFp (strict zero : Bool) (fa fb : Fmt) (k old : Nat) (as bs : List Nat) : Nat × FpFlags × Option Nat :=
  let g := groupWidth fa fb
  let r := dotFp strict g (k / g) (startC strict zero old) (as.map (operandNum strict fa)) (bs.map (operandNum strict fb))
  ((roundNum .fp32 strict r.val).bits, r.flags, r.trap)

/-- One element of an INT8 command: pattern and whether it saturated (R189). -/
def cellInt (zero : Bool) (old : Nat) (as bs : List Nat) : Nat × Bool :=
  let s := (List.zipWith (fun a b => fmtToInt .int8 a * fmtToInt .int8 b) as bs).sum
  let c := (if zero then 0 else fmtToInt .int32 old) + s
  (fmtOfIntSat .int32 c, fmtOutOfRange .int32 c)

/-- What a command computed: the 4,096 elements of C row by row, the flags of strict mode (or the saturation of INT8, as
overflow, in both modes), and the lowest element that trapped with its cause. -/
structure MatRes where
  cells : List Nat
  flags : FpFlags
  trap : Option (Nat × Nat)
  deriving DecidableEq, Repr, Inhabited

/-- C from the rows of A, the columns of B and the old C (R188, R189). -/
def matProduct (strict zero : Bool) (fa fb : Fmt) (k : Nat) (old : List Nat) (aRows bCols : List (List Nat)) : MatRes :=
  let idx := (List.range 4096).map (fun n => (n, old.getD n 0, aRows.getD (n / 64) [], bCols.getD (n % 64) []))
  if fa == .int8 then
    let cs := idx.map (fun q => cellInt zero q.2.1 q.2.2.1 q.2.2.2)
    ⟨cs.map (·.1), ⟨false, cs.any (·.2), false, false⟩, none⟩
  else
    let cs := idx.map (fun q => cellFp strict zero fa fb k q.2.1 q.2.2.1 q.2.2.2)
    ⟨cs.map (·.1), cs.foldl (fun f c => f.or c.2.1) .none,
      cs.zipIdx.findSome? (fun q => q.1.2.2.map (fun c => (q.2, c)))⟩

end Sys2Proof.Machine
end

