-- ==== Sys2Proof/Machine/Matrix.lean ====
section
/-! DEFINITION. Matrix engines: MSUB, MWAIT and the end of a command (R214, R216, R230 to R241). -/

namespace Sys2Proof.Machine

/-- The space of a matrix operand code (R233). -/
def matSpace (c : Nat) : Space := if c == 2 then .basalt else .scratch

/-- Octets from the first of row 0 of A to the last of row 63 (R234). -/
def matALen (m : MatCmd) : Nat := 63 * m.aStride + m.k * matSize m.aFmt

/-- Octets of the range of a plain B (R234). -/
def matBLen (m : MatCmd) : Nat := (m.k - 1) * m.bStride + 64 * matSize m.bFmt

/-- What a CCT gives a command: its element format, and the columns of B down the K rows read; or the tile defect (R233,
R239 to R241). -/
def cctCols (h : CctHeader) (x : Octets) (panel firstRow k : Nat) : Option (List (List Nat)) := do
  let tiles ← ((List.range (k / 64)).map (fun i => panel * (h.rows / 64) + firstRow / 64 + i)).mapM (tileSymbols h x)
  let rows := tiles.flatten
  some ((List.range 64).map (fun j => rows.map (fun r => (symbolElem h (r.getD j 0)).2)))

/-- How a command's operands turn out: a status that leaves C unchanged, a stream defect, or A's format, B's format, A's rows
and B's columns (R234 steps 1 to 4). -/
inductive MatInput where
  | refused (st : Status)
  | defect
  | ready (fa fb : Fmt) (rows cols : List (List Nat))
  deriving DecidableEq, Repr, Inhabited

namespace State

/-- Rows of A (R233). -/
def matRows (s : State) (c : Nat) (m : MatCmd) (f : Fmt) : List (List Nat) :=
  (List.range 64).map (fun i => elemsOf f m.k (s.readLocal (matSpace m.aSpace) c (m.aAddr + i * m.aStride) (m.k * f.size)))

/-- Columns of a plain B (R233). -/
def matCols (s : State) (c : Nat) (m : MatCmd) (f : Fmt) : List (List Nat) :=
  let rows := (List.range m.k).map (fun r => elemsOf f 64 (s.readLocal (matSpace m.bSpace) c (m.bAddr + r * m.bStride) (64 * f.size)))
  (List.range 64).map (fun j => rows.map (fun r => r.getD j 0))

/-- The windows that a command needs before its CCT header is read (R234 step 2). -/
def matWindows (s : State) (p c : Nat) (m : MatCmd) : Bool :=
  s.access p (matSpace m.aSpace) c m.aAddr (matALen m) .read &&
  s.access p (matSpace m.bSpace) c m.bAddr (if m.cct then 480 else matBLen m) .read &&
  s.access p .scratch c m.cAddr 16384 { Rights.write with r := !m.zero }

/-- Octets of a CCT from its header on, and its total length field (R234, R236). -/
def cctLength (s : State) (sp : Space) (c a : Nat) : Nat := beAt 20 4 (s.readLocal sp c a 480)

/-- The operands of a command, checked in the order of R234. -/
def matInput (s : State) (p c : Nat) (m : MatCmd) : MatInput :=
  if !matFormOk m then .refused .badDescriptor
  else if !s.matWindows p c m then .refused .segmentFault
  else match matFmt m.aFmt with
    | none => .refused .badDescriptor
    | some fa =>
      if m.cct then
        let sp := matSpace m.bSpace
        let total := s.cctLength sp c m.bAddr
        if !s.access p sp c m.bAddr (max 480 total) .read then .refused .segmentFault
        else match cctHeader (s.readLocal sp c m.bAddr 480) with
          | none => .refused .badDescriptor
          | some h =>
            if h.cols / 64 ≤ m.panel || h.rows < m.firstRow + m.k || (h.kind == 3) != (fa == .int8) then .refused .badDescriptor
            else match cctCols h (s.readLocal sp c m.bAddr total) m.panel m.firstRow m.k with
              | none => .defect
              | some cols => .ready fa h.fmt (s.matRows c m fa) cols
      else match matFmt m.bFmt with
        | none => .refused .badDescriptor
        | some fb => .ready fa fb (s.matRows c m fa) (s.matCols c m fb)

/-- Ranges that a command reads: A, B, and C where it adds to it (R230, R235). -/
def matReads (s : State) (c : Nat) (m : MatCmd) : List (Space × Nat × Nat × Nat) :=
  (matSpace m.aSpace, c, m.aAddr, matALen m) ::
  (matSpace m.bSpace, c, m.bAddr, if m.cct then max 480 (s.cctLength (matSpace m.bSpace) c m.bAddr) else matBLen m) ::
  (if m.zero then [] else [(Space.scratch, c, m.cAddr, 16384)])

/-- MWAIT: the status of a ticket, at once or after its command ends; the command's ranges are then free (R214, R235). -/
def mwaitCore (s : State) (k rd : Nat) (ticket : Nat) : State :=
  match findTicket (s.core k).matNext ticket (s.core k).matTickets with
  | some none => s.stallCore k (.mwait ticket rd)
  | some (some st) =>
    (s.updCore k (fun c => { c with matOpen := c.matOpen.filter (fun w => w.ticket != ticket) })).retireReg k 4 rd
      (BitVec.ofNat 64 (statusCode st))
  | none => s.retireReg k 4 rd (BitVec.ofNat 64 (statusCode .badDescriptor))

/-- A ticket takes its status, and a core that waits for it goes on (R214). -/
def endMatTicket (s : State) (k inv ticket : Nat) (st : Status) : State :=
  if (s.core k).inv != some inv then s
  else
    let s := s.updCore k (fun c => { c with matTickets := setTicket ticket st c.matTickets })
    match (s.core k).stall with
    | .mwait t rd => if t == ticket then s.mwaitCore k rd t else s
    | _ => s

/-- MSUB: the block is read from data memory and queued at the engine it names (R214, R216). -/
def msubCore (s : State) (k rd a : Nat) (cmd : Instr) : State :=
  match s.invOf k with
  | none => s
  | some v =>
    if a % 8 != 0 then s.except k 4 a
    else if a < dmemBase || dmemEnd < a + 64 then s.except k 5 a
    else
      let x := memRead 0 (s.core k).dmem a 64
      let m := matCmd x
      let e := 4 * v.cluster + m.engine
      if m.engine < 4 && (s.engine e).faulty then s.hangInv v.id
      else if s.windowsWait v.part || 32 ≤ openTickets (s.core k).matTickets || (m.engine < 4 && 8 ≤ (s.engine e).queue.length) then
        s.stallCore k (.retry cmd)
      else
        let t := (s.core k).matNext
        let s := s.updCore k (fun c => { c with matNext := (t + 1) % 65536, matTickets := addTicket t c.matTickets })
        let s := s.retireReg k 4 rd (BitVec.ofNat 64 t)
        if 4 ≤ m.engine then s.endMatTicket k v.id t .badDescriptor
        else
          let s := if matFormOk m && s.matWindows v.part v.cluster m then
              (s.noteWork v.id [(Space.scratch, v.cluster, m.cAddr, 16384)]).updCore k (fun c => { c with
                matOpen := c.matOpen ++ [⟨e, t, s.matReads v.cluster m, m.cAddr, false, false⟩] })
            else s
          s.updEngine e (fun y => { y with queue := y.queue ++ [⟨k, v.id, t, x⟩] })

/-- A command that ran is marked so; one that left C unchanged is watched no longer (R235). -/
def closeWatch (s : State) (k inv ticket : Nat) (ran : Bool) : State :=
  if (s.core k).inv != some inv then s
  else s.updCore k (fun c => { c with
    matOpen := if ran then mapWhen (fun w => w.ticket == ticket) (fun w => { w with done := true }) c.matOpen
      else c.matOpen.filter (fun w => w.ticket != ticket) })

/-- The rule of R235 has been broken for a command. -/
def isRaced (s : State) (j : MatJob) : Bool :=
  (s.core j.core).inv == some j.inv && (s.core j.core).matOpen.any (fun w => w.ticket == j.ticket && w.raced)

/-- C is undefined (R234 step 4, R235). -/
def spoilC (s : State) (e : Nat) (m : MatCmd) : State :=
  let f := s.freeOctets 16384
  (f.2.noteWrite (some e) .scratch (e / 4) m.cAddr 16384).placeLocal .scratch (e / 4) m.cAddr f.1

/-- The product of a command reaches C, the flags and the trap records; its status (R188 to R193, R216, R234 step 5). -/
def writeMat (s : State) (e : Nat) (j : MatJob) (v : Invocation) (m : MatCmd) (fa fb : Fmt) (rows cols : List (List Nat)) : Status × State :=
  let c := e / 4
  let old := elemsOf .fp32 4096 (s.readLocal .scratch c m.cAddr 16384)
  let r := matProduct m.strict m.zero fa fb m.k old rows cols
  let raced := s.isRaced j
  let s := if raced then s.spoilC e m
    else (s.noteWrite (some e) .scratch c m.cAddr 16384).placeLocal .scratch c m.cAddr (elemBytes .fp32 r.cells)
  let s := s.closeWatch j.core j.inv j.ticket true
  let s := if fa == .int8 then (if r.flags.overflow then s.bump (.progFlag v.part v.index 1) else s)
    else s.updInv v.id (fun x => { x with flags := x.flags.or (r.flags.inMode m.strict) })
  match r.trap with
  | some (i, cause) => (.poisonedNan, s.trapInv v.id 3 i cause 2 e)
  | none => (.ok, s)

/-- The reads of a command, told to the watch on the rule of R235: its operands, or the CCT's header alone where that refuses it. -/
def noteReads (s : State) (e p : Nat) (m : MatCmd) (i : MatInput) : State :=
  let c := e / 4
  let rs := match i with
    | .refused _ => if matFormOk m && m.cct && s.matWindows p c m then [(matSpace m.bSpace, c, m.bAddr, 480)] else []
    | _ => s.matReads c m
  rs.foldl (fun s q => s.noteRead (some e) q.1 q.2.1 q.2.2.1 q.2.2.2) s

/-- A command runs: its status (R234). One whose CCT was changed under it can be refused, and its C is undefined (R235). -/
def runMat (s : State) (e : Nat) (j : MatJob) (v : Invocation) : Status × State :=
  let m := matCmd j.block
  let i := s.matInput v.part (e / 4) m
  let s := s.noteReads e v.part m i
  match i with
  | .refused st =>
    if s.isRaced j then (st, (s.spoilC e m).closeWatch j.core j.inv j.ticket true) else (st, s.closeWatch j.core j.inv j.ticket false)
  | .defect => (.badDescriptor, ((s.spoilC e m).closeWatch j.core j.inv j.ticket true).bumpPart v.part 14)
  | .ready fa fb rows cols => s.writeMat e j v m fa fb rows cols

/-- The command at the head of an engine's queue ends (R216, R234, R235). One of an invocation that has ended otherwise than normally
finishes as any other; what it could write is undefined when the invocation completes (R202). -/
def endMat (s : State) (e : Nat) : State :=
  match (s.engine e).queue with
  | [] => s
  | j :: r =>
    let s := s.updEngine e (fun y => { y with queue := r })
    match s.inv j.inv with
    | none => s
    | some v =>
      let a := s.runMat e j v
      ((a.2.endMatTicket j.core j.inv j.ticket a.1).wakeCores (e / 4)).checkInv j.inv

end State

/-! ### Meanings -/

/-- MSUB (R214, R216). -/
def execMsub (core : CoreId) (rs1 rd : Fin 32) (s : State) : Host.Outcome State Fault Refusal :=
  .next (if s.coreReady core then s.msubCore core rd ((s.core core).reg rs1).toNat (.msub core rs1 rd) else s)

/-- MWAIT (R214). -/
def execMwait (core : CoreId) (rs1 rd : Fin 32) (s : State) : Host.Outcome State Fault Refusal :=
  .next (if s.coreReady core then s.mwaitCore core rd ((s.core core).reg rs1).toNat else s)

/-- MATRIX_COMMAND_DONE (R216, R230 to R241). -/
def execMatrixCommandDone (e : EngineId) (s : State) : Host.Outcome State Fault Refusal := .next (s.endMat e)

end Sys2Proof.Machine
end

