-- ==== Sys2Proof/Machine/Partner.lean ====
section
/-! DEFINITION. The partner: who it is, where its mirror store holds what, the operations that reach it, and the keys of
bulk messages (R335, R350, R398 to R404). -/

namespace Sys2Proof.Machine

/-! ### Layouts (R335, R402 to R404) -/

/-- Octets of a page slot of the mirror store (R402). -/
def pageSlot : Nat := 67584

/-- The 128 octets of a commit record of partition p (R404). -/
def mirrorCommitBytes (p : Nat) (c : MirrorCommitRec) : Octets :=
  let b := beBytes 4 0x4D495252 ++ beBytes 1 c.half ++ beBytes 1 p ++ zeros 2 ++ beBytes 8 c.seq ++ beBytes 8 c.uid ++
    beBytes 8 c.step ++ beBytes 4 c.pages ++ beBytes 4 c.length ++ zeros 84
  b ++ beBytes 4 (crcOf crc32c b)

/-- Reads a commit copy of partition p; none when it is not valid (R404). -/
def parseMirrorCommit (p : Nat) (x : Octets) : Option MirrorCommitRec := do
  okIf (x.length == 128 && beAt 0 4 x == 0x4D495252 && octetAt 4 x < 2 && octetAt 5 x == p && zerosAt 6 2 x && zerosAt 40 84 x &&
    beAt 124 4 x == crcOf crc32c (slice 0 124 x))
  some ⟨octetAt 4 x, beAt 8 8 x, beAt 16 8 x, beAt 24 8 x, beAt 32 4 x, beAt 36 4 x⟩

/-- Of two copies, the valid one with the higher sequence counts (R404). -/
def countingCopy (p : Nat) (a b : Octets) : Option MirrorCommitRec :=
  match parseMirrorCommit p a, parseMirrorCommit p b with
  | some x, some y => some (if x.seq < y.seq then y else x)
  | some x, none => some x
  | none, y => y

/-- Octets 0 to 23 of the envelope of a bulk message of `n` octets: its associated data (R328, R335). -/
def envelopeHead (salt : Octets) (counter n : Nat) : Octets := [0x01, 0x07] ++ zeros 2 ++ salt ++ beBytes 8 counter ++ beBytes 8 n

/-- The ciphertext and the tag of a bulk message (R328). -/
def bulkSeal (key salt : Octets) (counter : Nat) (plain : Octets) : Octets × Octets :=
  gcmSeal key (salt ++ beBytes 8 counter) (envelopeHead salt counter plain.length) plain

/-- The envelope of a sealed bulk message (R335). -/
def envelopeBytes (salt : Octets) (counter : Nat) (ct tag : Octets) : Octets :=
  envelopeHead salt counter ct.length ++ ct ++ beBytes 4 1 ++ tag

/-- The envelope of a seal that is aborted once `k` octets of its ciphertext have left it (R336). -/
def abortBytes (salt : Octets) (counter k : Nat) (ct : Octets) : Octets :=
  envelopeHead salt counter ct.length ++ ct.take k ++ zeros (ct.length - k) ++ beBytes 4 0xAB ++ zeros 16

/-- The body of an envelope whose tag verifies under a key and its salt (R328, R336). -/
def openEnvelope (key salt : Octets) (x : Octets) : Option Octets := do
  let n := beAt 16 8 x
  okIf (x.length == 44 + n && octetAt 0 x == 1 && octetAt 1 x == 7 && zerosAt 2 2 x && slice 4 4 x == salt && 16 ≤ n &&
    n ≤ 67108864 && beAt (24 + n) 4 x == 1)
  gcmOpen key (slice 4 12 x) (x.take 24) (slice 24 n x) (slice (28 + n) 16 x)

namespace State

/-! ### Who the partner is (R398) -/

/-- A window of partition 0 by index. -/
def systemWindow (s : State) (k : Nat) : Option Window := s.conf.windows.find? (fun w => w.part == 0 && w.index == k)

/-- Node number of the partner: window 14 of partition 0, kind GLOBAL (R398). -/
def partnerNode (s : State) : Option Nat :=
  (s.systemWindow 14).bind (fun w => if w.kind == 1 then some (nodeOf w.base) else none)

/-- Window 15 of partition 0, the mirror store held for the partner; the partner's own store is taken to lie at the same base
with the same size (R398, R402; log entry 14). -/
def storeWindow (s : State) : Option Window :=
  (s.systemWindow 15).bind (fun w => if w.kind == 3 && w.r && w.w then some w else none)

/-- Slot whose position 0 is the pair master: the lowest of partition 0 with a KEYBLOB of usage 0x01 (R398). -/
def masterSlot (s : State) : Option Nat := (s.sealSlots 0).head?

/-- The Doldex has a partner (R398). -/
def hasPartner (s : State) : Bool := s.partnerNode.isSome && s.storeWindow.isSome && s.masterSlot.isSome

/-- The pair master; none while its slot is EMPTY (R398). -/
def pairMaster (s : State) : Option Octets :=
  (s.masterSlot.bind s.keySlot).bind (fun k => if k.state == .empty then none else (k.mag.keys.head?).map Prod.fst)

/-! ### The mirror store (R402) -/

/-- The mirror of a partition. -/
def mirrorOf (s : State) (p : Nat) : Option Mirror := s.mirrors.find? (fun m => m.part == p)

/-- A mirror changed by `f`. -/
def updMirror (s : State) (p : Nat) (f : Mirror → Mirror) : State := { s with mirrors := mapWhen (fun m => m.part == p) f s.mirrors }

/-- Base of the partner's store. -/
def storeBase (s : State) : Nat := (s.storeWindow.map Window.base).getD 0

/-- B_p: twice the page counts of the partitions below p (R402). -/
def pagesBelow (s : State) (p : Nat) : Nat := 2 * ((List.range p).map (fun q => if q == 0 then 0 else s.pageCount q)).sum

/-- Address of commit copy c of partition p (R402). -/
def commitAddr (s : State) (p c : Nat) : Nat := s.storeBase + (p - 1) * 256 + 128 * c

/-- Address of half h of partition p (R402). -/
def halfAddr (s : State) (p h : Nat) : Nat := s.storeBase + 0x00010000 + (2 * (p - 1) + h) * 2 ^ 20

/-- Address of slot k of page i of partition p (R402). -/
def pageAddr (s : State) (p i k : Nat) : Nat := s.storeBase + 0x08000000 + (s.pagesBelow p + 2 * i + k) * pageSlot

/-- Partition p fits the store (R402). -/
def mirrorFits (s : State) (p : Nat) : Bool :=
  match s.storeWindow with
  | some w => decide (0x08000000 + (s.pagesBelow p + 2 * s.pageCount p) * pageSlot ≤ w.limit - w.base)
  | none => false

/-- Address and length of page i over the mirrored windows given (R401). -/
def pageRange : List Window → Nat → Nat × Nat
  | [], _ => (0, 0)
  | w :: r, i => if i < pagesOf w then (w.base + 65536 * i, min 65536 (w.limit - w.base - 65536 * i)) else pageRange r (i - pagesOf w)

/-- Every page of p is dirty, and nothing is known of the slots (R405, R407, R408). -/
def allDirty (s : State) (p : Nat) : State := s.updMirror p (fun m => { m with dirty := List.range (s.pageCount p) })

/-! ### Operations on the partner (R399) -/

/-- MEM_PUT of one piece to the partner's store: partition 0, class 0 (R399). -/
def partnerPut (s : State) (org : Origin) (addr : Nat) (x : Octets) : State :=
  match s.partnerNode with
  | some n => s.sendNode 0 0 (.descStage 0) org 0x10 n 0 (memBody .basalt 0 0 0 x.length addr 0 0 x) none
  | none => s.answerOp org .timeout []

/-- MEM_GET of one piece of the partner's store (R399). -/
def partnerGet (s : State) (org : Origin) (addr len : Nat) : State :=
  match s.partnerNode with
  | some n => s.sendNode 0 0 (.descStage 0) org 0x11 n len (memBody .basalt 0 0 0 len addr 0 0 []) none
  | none => s.answerOp org .timeout []

/-- A mirror's job with `n` operations more, numbered after those it has had. -/
def jobOps (j : MirrorJob) (n : Nat) : List Nat := (List.range n).map (fun i => j.issued + i)

/-- Octets written to the partner in pieces of a mirror's job (R405). -/
def mirrorPut (s : State) (p : Nat) (addr : Nat) (x : Octets) : State :=
  match (s.mirrorOf p).bind Mirror.job with
  | none => s
  | some j =>
    let ps := piecesOf addr x.length
    let ks := jobOps j ps.length
    let s := s.updMirror p (fun m => { m with job := some { j with left := j.left ++ ks, issued := j.issued + ps.length } })
    (ks.zip ps).foldl (fun s q => s.partnerPut (.mirror p q.1) q.2.1 (slice (q.2.1 - addr) q.2.2 x)) s

/-- Runs read from the partner in pieces of a mirror's job (R405, R410). -/
def mirrorGet (s : State) (p : Nat) (runs : List (Nat × Nat)) : State :=
  match (s.mirrorOf p).bind Mirror.job with
  | none => s
  | some j =>
    let ps := runs.flatMap (fun r => piecesOf r.1 r.2)
    let ks := jobOps j ps.length
    let s := s.updMirror p (fun m => { m with job := some { j with left := ks, reads := [], issued := j.issued + ps.length } })
    (ks.zip ps).foldl (fun s q => s.partnerGet (.mirror p q.1) q.2.1 q.2.2) s

/-- Octets that a job has read, in order of its operations. -/
def jobData (j : MirrorJob) : Octets := (sortBy (fun a b => decide (a.1 ≤ b.1)) j.reads).flatMap Prod.snd

/-- Both commit copies of p are written as zeros (R407). -/
def zeroCommits (s : State) (p : Nat) : State :=
  if s.hasPartner then (s.partnerPut .nobody (s.commitAddr p 0) (zeros 128)).partnerPut .nobody (s.commitAddr p 1) (zeros 128) else s

/-! ### Slot 7 and bulk messages (R329, R335, R350, R400) -/

/-- Slot 7, derived when first needed and held from then on: key and salt; none after Knell, and while the pair master's slot is EMPTY
(R350, R400). -/
def partnerSlot (s : State) : Option ((Octets × Octets) × State) :=
  if s.keys.derived.isEmpty then none
  else match s.derivedKey 7 with
    | some k => some ((k.take 32, k.drop 32), s)
    | none => s.pairMaster.map (fun master =>
        let k := partnerKey (pairKey master s.fixed.uid.toNat)
        (k, s.hold 7 (k.1 ++ k.2)))

/-- The key with which a restore's messages open: that of the device which the commit record names; held beside slot 7 by the messages
alone (R400). -/
def bulkKey (s : State) (p : Nat) : Option (Octets × Octets) :=
  if s.keys.derived.isEmpty then none
  else match ((s.mirrorOf p).bind Mirror.job).bind MirrorJob.commit with
    | some c => s.pairMaster.map (fun master => partnerKey (pairKey master c.uid))
    | none => none

/-- An invocation of slot 7, which is activated when first needed: key, salt and counter; the status with which a message fails where
there is none (R329, R350, R355). -/
def partnerInvocation (s : State) : Except Status ((Octets × Octets × Nat) × State) :=
  match s.partnerSlot with
    | none => .error .keyErased
    | some (k, s) =>
      match s.keys.partner with
      | some (a, i) =>
        .ok ((k.1, k.2, a * 2 ^ 32 + i),
          { s with keys := { s.keys with partner := if i + 1 < 2 ^ 32 then some (a, i + 1) else none } })
      | none =>
        if !s.quartz.set then .error .keyErased
        else if s.keys.ent != .healthy then .error .entropyFail
        else
          let a := s.activate
          .ok ((k.1, k.2, a.1 * 2 ^ 32), { a.2 with keys := { a.2.keys with partner := some (a.1, 1) } })

/-- A bulk message starts, bound to its key: a seal takes its invocation of slot 7, an open the key of its sender; one that can have
none is aborted (R330, R347, R355, R400). -/
def beginBulk (s : State) (b : BulkJob) : State :=
  let r : BulkJob × State :=
    if b.isSeal then match s.partnerInvocation with
      | .ok (k, t) => ({ b with started := true, key := k.1, salt := k.2.1, counter := k.2.2 }, t)
      | .error _ => ({ b with started := true, aborted := true }, s)
    else match s.bulkKey b.part with
      | some k => ({ b with started := true, key := k.1, salt := k.2 }, s)
      | none => ({ b with started := true, aborted := true }, s)
  { r.2 with keys := { r.2.keys with bulk := mapWhen (fun x => x.id == b.id) (fun _ => r.1) r.2.keys.bulk } }

/-- Work of class 1 or 2 waits on a line die: a segment that has come and has not been opened (R331). -/
def cipherWaits (s : State) (d : Nat) : Bool :=
  s.handed.any (fun h => match h.2 with
    | .dataSegmentRx l _ _ | .streamOpenRx l _ _ | .streamResetRx l _ _ => lineDie l.val == d
    | _ => false)

/-- Bulk messages that may start: at most two on a line die at once, and none while work of class 1 or 2 waits there (R331). -/
def startBulk (s : State) : State :=
  [0, 1].foldl (fun s d =>
    if s.cipherWaits d then s else
    let busy := s.keys.bulk.countP (fun b => b.die == d && b.started)
    ((s.keys.bulk.filter (fun b => b.die == d && !b.started)).take (2 - busy)).foldl beginBulk s) s

/-- A bulk message joins a line die's work (R331, R335). -/
def addBulk (s : State) (die p : Nat) (isSeal : Bool) (plain : Octets) (purpose arg dest : Nat) (envelope : Octets) : State :=
  let b : BulkJob := { id := s.keys.nextBulk, die := die, part := p, isSeal := isSeal, started := false, aborted := false, plain := plain,
                       purpose := purpose, arg := arg, envelope := envelope, dest := dest, key := [], salt := [], counter := 0 }
  ({ s with keys := { s.keys with bulk := s.keys.bulk ++ [b], nextBulk := s.keys.nextBulk + 1 } }).startBulk

/-- The bulk messages that `f` picks are aborted, and their keys leave the cores. A seal that runs sends zeros in place of what it has
not sent yet, and the abort trailer; how far it had come is a free value (R336, R348; log entry 3). -/
def abortJobs (s : State) (f : BulkJob → Bool) : State :=
  let s := (s.keys.bulk.filter (fun b => f b && b.isSeal && b.started && !b.aborted && !b.key.isEmpty)).foldl (fun s b =>
    let r := s.free
    let x := abortBytes b.salt b.counter (r.1.toNat % (b.plain.length + 1)) (bulkSeal b.key b.salt b.counter b.plain).1
    (piecesOf b.dest x.length).foldl (fun s q => s.partnerPut .nobody q.1 (slice (q.1 - b.dest) q.2 x)) r.2) s
  { s with keys := { s.keys with bulk := mapWhen f (fun b => { b with aborted := true, key := [] }) s.keys.bulk } }

/-- Bulk messages of a partition are aborted; they are no part of a later job of its mirror (R336, R348). -/
def abortBulk (s : State) (p : Nat) : State :=
  let s := s.abortJobs (fun b => b.part == p)
  { s with keys := { s.keys with bulk := mapWhen (fun b => b.part == p) (fun b => { b with part := 0 }) s.keys.bulk } }

/-! ### Mirror states (R408) -/

/-- A partition's mirror takes a state. -/
def setMirror (s : State) (p : Nat) (m : MirrorState) : State := s.updPart p (fun q => { q with mirror := m })

/-- A MIRROR event: its cause and the partition's step number (R478). -/
def mirrorEvent (s : State) (p cause : Nat) : State := s.raise 0x0901 (some p) (oct cause ++ leBytes 4 ((s.part p).step % 2 ^ 32))

/-- A job of a mirror ends. -/
def dropJob (s : State) (p : Nat) : State := (s.abortBulk p).updMirror p (fun m => { m with job := none })

/-- A partition with mirrored windows and no mirror state takes one: UNPROTECTED with no partner or no room, HELD_BACK
otherwise (R402, R408). -/
def beginMirror (s : State) (p : Nat) : State :=
  if s.pageCount p == 0 || p == 0 then s
  else if !s.hasPartner then s.setMirror p .unprotected
  else if !(s.mirrorFits p) then (s.setMirror p .unprotected).mirrorEvent p 1
  else
    let m : Mirror := { part := p, dirty := List.range (s.pageCount p), bitmap := List.replicate (s.pageCount p) false, seq := 0, half := 1,
                        tried := none, job := none, staged := none, probed := false }
    let s : State := { s with mirrors := s.mirrors.filter (fun x => x.part != p) ++ [m] }
    s.setMirror p .heldBack

/-- The mirror of a partition is gone, and its state none (R408). -/
def dropMirror (s : State) (p : Nat) : State :=
  let s := (s.dropJob p).setMirror p .none
  { s with mirrors := s.mirrors.filter (fun x => x.part != p) }

/-- SCRUBBING begins: the commit copies become zeros, and the mirror is gone (R407, R408). -/
def endMirror (s : State) (p : Nat) : State :=
  if (s.mirrorOf p).isSome then (s.dropMirror p).zeroCommits p else s.dropMirror p

/-- A restore fails: HELD_BACK with an event, and the mirrored windows undefined (R408; log entry 3). -/
def restoreFails (s : State) (p : Nat) : State :=
  let s := ((s.dropJob p).setMirror p .heldBack).mirrorEvent p 3
  let ws := s.mirrored p
  (List.range (s.pageCount p)).foldl (fun s i =>
    let r := pageRange ws i
    let f := s.freeOctets r.2
    f.2.writeLocal .basalt 0 r.1 f.1) s

/-- What a reload that changes the mirrored windows, or moves B_p, does to a mirror (R407, R408). -/
def voidMirror (s : State) (p : Nat) : State :=
  let n := s.pageCount p
  let s := (s.dropJob p).updMirror p (fun m =>
    { m with dirty := List.range n, bitmap := List.replicate n false, seq := 0, tried := none, staged := none })
  match (s.part p).mirror with
  | .staged => (s.setMirror p .heldBack).mirrorEvent p 4
  | .restoring => s.restoreFails p
  | _ => s

/-- Mirrors after the windows of partition r have changed (R401, R402, R407): `old` are its mirrored windows before. -/
def mirrorsAfter (s : State) (r : Nat) (old : List Window) (oldBelow : List Nat) : State :=
  let s : State := if s.mirrored r == old then s
    else if s.pageCount r == 0 then (if (s.part r).mirror == .staged then s.mirrorEvent r 4 else s).dropMirror r
    else if (s.mirrorOf r).isSome then s.voidMirror r
    else (s.setMirror r .none).beginMirror r
  (s.mirrors.map Mirror.part).foldl (fun s p => if p != r && oldBelow.getD p 0 != s.pagesBelow p then s.voidMirror p else s) s

end State

end Sys2Proof.Machine
end

