-- ==== Sys2Proof/Machine/TaborRun.lean ====
section
/-! DEFINITION. The execution of one instruction of a Tabor core: fetch, decoding, RV64IMAC, CSRs, and the stream and system
instructions (R195 to R201, R204, R214). -/

namespace Sys2Proof.Machine

/-- A CSR instruction writes: CSRRW always, CSRRS and CSRRC when their source field is not 0 (R195). -/
def csrWrites (f3 rs1 : Nat) : Bool := f3 % 4 == 1 || rs1 != 0

/-- The value that a CSR instruction writes from the old value and its source. -/
def csrNew (f3 : Nat) (old src : Word64) : Word64 :=
  match f3 % 4 with
  | 1 => src
  | 2 => old ||| src
  | _ => old &&& ~~~src

/-- The stream operation of a funct3 (R204). -/
def streamOpOf : Nat → Option StreamOp
  | 0 => some .ssum
  | 1 => some .smap
  | 2 => some .sscan
  | 3 => some .sgather
  | 4 => some .sfilter
  | 5 => some .ssort
  | 6 => some .smerge
  | _ => none

/-- An address that a core computes: base and offset, modulo 2^64. -/
def addrOf (base : Word64) (imm : Int) : Nat := (base + BitVec.ofInt 64 imm).toNat

namespace State

/-- A load (R195, R196). -/
def loadCore (s : State) (k len f3 rd a : Nat) (cmd : Instr) : State :=
  let width := accessWidth f3
  match s.invOf k with
  | none => s
  | some v =>
    if a % width != 0 then s.except k 4 a
    else if a + width ≤ imemSize then s.retireReg k len rd (loadValue f3 (leNat (memRead 0 (s.core k).imem a width)))
    else if inControl a then s.cvLoad k len rd f3 a cmd
    else if s.coreWaits v a width false then s.stallCore k (.retry cmd)
    else match s.locate v a width .read with
      | none => s.except k 5 a
      | some (sp, c, o) =>
        let x := leNat (s.coreRead k sp c o width)
        (s.noteRead none sp c o width).retireReg k len rd (loadValue f3 x)

/-- A store (R195 to R197). -/
def storeCore (s : State) (k len f3 a v : Nat) (cmd : Instr) : State :=
  let width := accessWidth f3
  match s.invOf k with
  | none => s
  | some i =>
    if a % width != 0 then s.except k 6 a
    else if inControl a then s.cvStore k len width a (v % 256 ^ width) cmd
    else if s.coreWaits i a width true then s.stallCore k (.retry cmd)
    else match s.locate i a width .write with
      | none => s.except k 7 a
      | some (sp, c, o) => (s.coreWrite k sp c o (leBytes width v)).updCore k (fun x => x.retire len)

/-- LR, SC or an AMO on a location (R134, R198). -/
def amoAt (s : State) (k len f5 width rd : Nat) (sp : Space) (c o v : Nat) : State :=
  let old := leNat (s.coreRead k sp c o width)
  let key := granuleOf (coreKey k sp c o)
  let sign (x : Nat) : Word64 := BitVec.ofInt 64 (signedOf (8 * width) x)
  let core := s.core k
  if f5 == 2 then
    ((s.noteRead none sp c o width).updCore k (fun x => { x with reserve := some (key, core.cycles.toNat) })).retireReg k len rd (sign old)
  else if f5 == 3 then
    let ok := match core.reserve with
      | some (g, t) => g == key && decide (core.cycles.toNat ≤ t + 64)
      | none => false
    let s := if ok then s.coreWrite k sp c o (leBytes width v) else s
    (s.updCore k (fun x => { x with reserve := none })).retireReg k len rd (if ok then 0 else 1)
  else ((s.noteRead none sp c o width).coreWrite k sp c o (leBytes width (amoValue f5 width old v))).retireReg k len rd (sign old)

/-- An instruction of A (R198). -/
def amoCore (s : State) (k len f5 width rd a v : Nat) (cmd : Instr) : State :=
  match s.invOf k with
  | none => s
  | some i =>
    if a % width != 0 then s.except k (if f5 == 2 then 4 else 6) a
    else if s.coreWaits i a width (f5 != 2) then s.stallCore k (.retry cmd)
    else match s.locate i a width .atomic with
      | none => s.except k (if f5 == 2 then 5 else 7) a
      | some (sp, c, o) => s.amoAt k len f5 width rd sp c o v

/-- A CSR instruction (R7, R195, R203). -/
def csrCore (s : State) (k len f3 rd rs1 addr : Nat) : State :=
  match s.csrValue k addr with
  | none => s.illegal k
  | some old =>
    if csrWrites f3 rs1 then
      match s.csrWrite k addr (csrNew f3 old (if 4 ≤ f3 then BitVec.ofNat 64 rs1 else (s.core k).reg rs1)) with
      | none => s.illegal k
      | some t => t.retireReg k len rd old
    else s.retireReg k len rd old

/-- A jump: the link is written and the pc set. -/
def jumpCore (s : State) (k rd : Nat) (link target : Word64) : State :=
  s.updCore k (fun c => { c.setReg rd link with pc := target, instret := c.instret + 1 })

/-- An ECALL by its a7 (R200). -/
def ecallCore (s : State) (k : Nat) : State :=
  match ((s.core k).reg 17).toNat with
  | 0 => s.endCore k
  | 1 => s.endAll k
  | _ => s.illegal k

/-- A stream instruction of custom-0 (R204). -/
def custom0Core (s : State) (k f7 f3 rd rs1 rs2 : Nat) (cmd : Instr) : State :=
  match streamOpOf f3 with
  | none => s.illegal k
  | some op => s.issueStream k cmd op ⟨f7.testBit 6, f7 % 64, rs2, rs1, rd⟩

/-- A system instruction of custom-1 (R214). -/
def custom1Core (s : State) (k f7 f3 rd rs1 rs2 : Nat) (cmd : Instr) : State :=
  let a := ((s.core k).reg rs1).toNat
  if f7 != 0 || rs2 != 0 || (rs1 != 0 && (f3 == 0 || f3 == 5 || f3 == 6)) then s.illegal k
  else match f3 with
    | 0 => s.swaitCore k rd
    | 1 => s.sdmaCore k rd a cmd
    | 2 => s.dwaitCore k rd a
    | 3 => s.msubCore k rd a cmd
    | 4 => s.mwaitCore k rd a
    | 5 => s.lockCore k rd
    | 6 => s.unlockCore k rd
    | _ => s.illegal k

/-- A decoded instruction of `len` octets (R195). -/
def runRv (s : State) (k len : Nat) (i : Rv) (cmd : Instr) : State :=
  let c := s.core k
  let next := c.pc + BitVec.ofNat 64 len
  match i with
  | .lui rd imm => s.retireReg k len rd (BitVec.ofInt 64 imm)
  | .auipc rd imm => s.retireReg k len rd (c.pc + BitVec.ofInt 64 imm)
  | .jal rd imm => s.jumpCore k rd next (c.pc + BitVec.ofInt 64 imm)
  | .jalr rd rs1 imm => s.jumpCore k rd next ((c.reg rs1 + BitVec.ofInt 64 imm) &&& ~~~1)
  | .branch f3 rs1 rs2 imm => s.jumpCore k 0 0 (if branchTaken f3 (c.reg rs1) (c.reg rs2) then c.pc + BitVec.ofInt 64 imm else next)
  | .load f3 rd rs1 imm => s.loadCore k len f3 rd (addrOf (c.reg rs1) imm) cmd
  | .store f3 rs1 rs2 imm => s.storeCore k len f3 (addrOf (c.reg rs1) imm) (c.reg rs2).toNat cmd
  | .aluImm op w rd rs1 imm => s.retireReg k len rd (aluOf w op (c.reg rs1) (BitVec.ofInt 64 imm))
  | .alu op w rd rs1 rs2 => s.retireReg k len rd (aluOf w op (c.reg rs1) (c.reg rs2))
  | .amo f5 width rd rs1 rs2 => s.amoCore k len f5 width rd (c.reg rs1).toNat (c.reg rs2).toNat cmd
  | .csr f3 rd rs1 addr => s.csrCore k len f3 rd rs1 addr
  | .fence | .wfi => s.updCore k (fun c => c.retire len)
  | .ecall => s.ecallCore k
  | .ebreak => s.exceptFree k 3
  | .mret => s.updCore k (fun c => { c with pc := c.mepc, instret := c.instret + 1 })
  | .custom0 f7 f3 rd rs1 rs2 => s.custom0Core k f7 f3 rd rs1 rs2 cmd
  | .custom1 f7 f3 rd rs1 rs2 => s.custom1Core k f7 f3 rd rs1 rs2 cmd
  | .illegal => s.illegal k

/-- Fetch and execution: a fetch from anywhere but instruction memory is an instruction access fault (R196, R201). -/
def stepCore (s : State) (k : Nat) : State :=
  let pc := (s.core k).pc.toNat
  let half := leNat (memRead 0 (s.core k).imem pc 2)
  let len := rvLength half
  if imemSize < pc + 2 then s.except k 1 pc
  else if imemSize < pc + len then s.except k 1 (pc + 2)
  else s.runRv k len (decodeRv (leNat (memRead 0 (s.core k).imem pc len))) (.taborInstruction (fin256 k))

/-- Length of the instruction at a core's pc. -/
def lengthAt (s : State) (k : Nat) : Nat := rvLength (leNat (memRead 0 (s.core k).imem (s.core k).pc.toNat 2))

end State

/-! ### Meanings -/

/-- TABOR_INSTRUCTION (R195 to R201). -/
def execTaborInstruction (core : CoreId) (s : State) : Host.Outcome State Fault Refusal :=
  .next (if s.coreReady core then s.stepCore core else s)

/-- ECALL_END_CORE (R200). -/
def execEcallEndCore (core : CoreId) (s : State) : Host.Outcome State Fault Refusal :=
  .next (if s.coreReady core then s.endCore core else s)

/-- ECALL_END_INVOCATION (R200). -/
def execEcallEndInvocation (core : CoreId) (s : State) : Host.Outcome State Fault Refusal :=
  .next (if s.coreReady core then s.endAll core else s)

/-- CVLOCK (R214, R229). -/
def execCvlock (core : CoreId) (rd : Fin 32) (s : State) : Host.Outcome State Fault Refusal :=
  .next (if s.coreReady core then s.lockCore core rd else s)

/-- CVUNLOCK (R214, R229). -/
def execCvunlock (core : CoreId) (rd : Fin 32) (s : State) : Host.Outcome State Fault Refusal :=
  .next (if s.coreReady core then s.unlockCore core rd else s)

/-- CV_CTRL_WRITE (R227, R229): a store of `width` octets to CV_CTRL. -/
def execCvCtrlWrite (core : CoreId) (width : Nat) (v : Word64) (s : State) : Host.Outcome State Fault Refusal :=
  .next (if s.coreReady core then
    s.cvStore core (s.lengthAt core) width 0x02000000 (v.toNat % 256 ^ width) (.cvCtrlWrite core width v) else s)

/-- CV_DATA_WRITE (R227 to R229): a store of `width` octets to CV_DATA. -/
def execCvDataWrite (core : CoreId) (width : Nat) (v : Word64) (s : State) : Host.Outcome State Fault Refusal :=
  .next (if s.coreReady core then
    s.cvStore core (s.lengthAt core) width 0x02000008 (v.toNat % 256 ^ width) (.cvDataWrite core width v) else s)

/-- CV_RESULT_READ (R227 to R229): a load of the 8 octets of CV_RESULT. -/
def execCvResultRead (core : CoreId) (rd : Fin 32) (s : State) : Host.Outcome State Fault Refusal :=
  .next (if s.coreReady core then s.cvLoad core (s.lengthAt core) rd 3 0x02000010 (.cvResultRead core rd) else s)

/-- CHECK_VALUE_UNIT_FREE (R228): every octet fed has been taken, and a core that stalls on the unit goes on. -/
def execCheckValueUnitFree (c : ClusterId) (s : State) : Host.Outcome State Fault Refusal :=
  .next ((s.updCluster c (fun x => { x with cvBusy := false })).wakeCores c)

end Sys2Proof.Machine
end

