-- ==== Sys2Proof/Machine/Tensor.lean ====
section
/-! DEFINITION. TENSOR_LOAD and the memory-side expanders (R242 to R245). -/

namespace Sys2Proof.Machine

/-- A TENSOR_LOAD field outside its range (R242). -/
def tensorBad (s : State) (h : DescHdr) (t : TensorLoad) (expand : Bool) : Bool :=
  t.srcSpace == .coreData || t.dstSpace == .coreData || t.dstSpace == .global || (expand && t.dstSpace != .basalt) ||
  (if t.srcSpace == .scratch then decide (16 ≤ t.srcCluster) else decide (t.srcCluster ≠ 0)) ||
  (if t.dstSpace == .scratch then decide (16 ≤ t.dstCluster) else decide (t.dstCluster ≠ 0)) ||
  decide (t.dst % 8 ≠ 0) || decide (t.capacity = 0) || decide (2 ^ 32 ≤ t.capacity) ||
  (decide (h.stream ≠ 0) && !(t.srcSpace == .global && s.siteRemote (siteOf t.src)))

/-- The line die whose expander runs a TENSOR_LOAD (R245): 0 L0, 1 L1. -/
def expanderOf (t : TensorLoad) : Nat :=
  if t.dstSpace == .scratch then (if t.dstCluster < 8 then 0 else 1) else if t.dst < 3 * 48 * 2 ^ 30 then 0 else 1

/-- The completion body of TENSOR_LOAD (R244). -/
def tensorBody (h : Option CctHeader) (tile : Nat) : Octets :=
  match h with
  | some h => beBytes 4 h.rows ++ beBytes 4 h.cols ++ beBytes 1 h.kind ++ zeros 3 ++ beBytes 4 tile
  | none => zeros 12 ++ beBytes 4 tile

/-- No defective tile (R244). -/
def noTile : Nat := 0xFFFFFFFF

/-- Octets that a TENSOR_LOAD writes (R243). -/
def tensorSize (expand : Bool) (h : CctHeader) : Nat := if expand then h.plainSize else h.total

namespace State

/-- Requests at an expander. -/
def expander (s : State) (die : Nat) : List TensorJob := s.expanders.getD die []

/-- Requests at an expander changed by `f`. -/
def updExpander (s : State) (die : Nat) (f : List TensorJob → List TensorJob) : State :=
  { s with expanders := s.expanders.set die (f (s.expander die)) }

/-- The statuses of R243 that come before acceptance: a cluster or stream not held, and the window of the first 480 octets (R129). The
partition's 16 requests are counted with its descriptors (R245). -/
def tensorCheck (s : State) (p stream : Nat) (t : TensorLoad) : Option (Status × Octets) :=
  let holds (sp : Space) (c : Nat) : Bool := sp != .scratch || s.holdsCluster p c
  let remote := t.srcSpace == .global && s.siteRemote (siteOf t.src)
  if !holds t.srcSpace t.srcCluster || !holds t.dstSpace t.dstCluster then some (.notPermitted, [])
  else if remote && !(s.holdsStream p stream && s.leadsTo stream (siteOf t.src)) then some (.notPermitted, [])
  else if !s.windowsWait p && !s.access p t.srcSpace t.srcCluster t.src 480 .read then some (.segmentFault, [])
  else none

/-- The request at the head of an expander starts: the header of a GLOBAL source is read (R243). -/
def startTensor (s : State) (die : Nat) : State :=
  match s.expander die with
  | [] => s
  | j :: _ =>
    if j.op.srcSpace == .global then s.startRead j.part j.stream j.cls (.localIn j.port) (.tensor die) j.op.src 480 else s

/-- An accepted TENSOR_LOAD joins its expander's requests, or is held for new windows (R50, R245). -/
def acceptTensor (s : State) (p id : Nat) (h : DescHdr) (expand : Bool) (t : TensorLoad) : State :=
  if s.windowsWait p then s.updDesc id (fun d => { d with hold := .later })
  else
    let die := expanderOf t
    let first := (s.expander die).isEmpty
    let s := s.updExpander die (fun l => l ++ [⟨id, p, expand, h.port.val, h.stream, h.cls, t, none, false⟩])
    if first then s.startTensor die else s

/-- The request at the head of an expander completes, and the next starts (R244, R245). -/
def endTensor (s : State) (die : Nat) (j : TensorJob) (st : Status) (body : Octets) : State :=
  ((s.updExpander die (fun l => l.drop 1)).complete j.desc st body).startTensor die

/-- The header and the ranges that it gives: the header, or the status of R243 steps 3 to 5. -/
def tensorHeader (s : State) (j : TensorJob) (x : Octets) : Except (Status × Octets) CctHeader :=
  let t := j.op
  match cctHeader x with
  | none => .error (.badDescriptor, tensorBody none noTile)
  | some h =>
    if !s.access j.part t.srcSpace t.srcCluster t.src h.total .read ||
        !s.access j.part t.dstSpace t.dstCluster t.dst (tensorSize j.expand h) .write then .error (.segmentFault, tensorBody (some h) noTile)
    else if t.capacity < tensorSize j.expand h then .error (.badDescriptor, tensorBody (some h) noTile)
    else .ok h

/-- The destination is undefined (R243). -/
def spoilTensor (s : State) (j : TensorJob) (h : CctHeader) : State :=
  let f := s.freeOctets (tensorSize j.expand h)
  f.2.writeLocal j.op.dstSpace j.op.dstCluster j.op.dst f.1

/-- Every tile is decoded, and the octets or the elements are written (R239, R241 to R243). -/
def writeTensor (s : State) (die : Nat) (j : TensorJob) (h : CctHeader) (x : Octets) : State :=
  match firstDefect h x (List.range h.tiles) with
  | some t => ((s.spoilTensor j h).bumpPart j.part 14).endTensor die j .badDescriptor (tensorBody (some h) t)
  | none =>
    (s.writeLocal j.op.dstSpace j.op.dstCluster j.op.dst (if j.expand then expandBytes h x else x)).endTensor die j .ok
      (tensorBody (some h) noTile)

/-- TENSOR_LOAD_DONE for a source in scratch or Basalt (R243). -/
def localTensor (s : State) (die : Nat) (j : TensorJob) : State :=
  let t := j.op
  let s := s.noteRead none t.srcSpace t.srcCluster t.src 480
  match s.tensorHeader j (s.readLocal t.srcSpace t.srcCluster t.src 480) with
  | .error e => s.endTensor die j e.1 e.2
  | .ok h => (s.noteRead none t.srcSpace t.srcCluster t.src h.total).writeTensor die j h (s.readLocal t.srcSpace t.srcCluster t.src h.total)

/-- TENSOR_LOAD_DONE for a GLOBAL source: its header, or the whole of it, has been read (R243). -/
def globalTensor (s : State) (die : Nat) (j : TensorJob) : State :=
  match s.takeXfer (.tensor die) with
  | none => s
  | some (x, s) =>
    match j.header with
    | none =>
      if x.status != .ok then s.endTensor die j x.status (tensorBody none noTile)
      else match s.tensorHeader j x.data with
        | .error e => s.endTensor die j e.1 e.2
        | .ok h =>
          (s.updExpander die (fun l => l.set 0 { j with header := some x.data })).startRead j.part j.stream j.cls (.localIn j.port)
            (.tensor die) j.op.src h.total
    | some y =>
      match cctHeader y with
      | none => s.endTensor die j .badDescriptor (tensorBody none noTile)
      | some h =>
        if x.status != .ok then (s.spoilTensor j h).endTensor die j x.status (tensorBody (some h) noTile)
        else s.writeTensor die j h x.data

/-- TENSOR_LOAD_DONE (R243 to R245): a write that waits for a mirror is put off (R405). -/
def tensorEnds (s : State) (die : Nat) : State :=
  match s.expander die with
  | [] => s
  | j :: _ =>
    if j.op.dstSpace == .basalt && s.writesWait j.op.dst j.op.capacity then
      s.updExpander die (fun l => l.set 0 { j with blocked := true })
    else
      let s := s.updExpander die (fun l => l.set 0 { j with blocked := false })
      if j.op.srcSpace == .global then s.globalTensor die { j with blocked := false } else s.localTensor die { j with blocked := false }

end State

/-! ### Meanings -/

/-- TENSOR_LOAD PLACE (R242, R243). -/
def execTensorPlace (h : DescHdr) (t : TensorLoad) (s : State) : Host.Outcome State Fault Refusal :=
  .next (s.begin h 0x32 (.tensorPlace h t) (tensorBad s h t false) (fun s p => s.tensorCheck p h.stream t)
    (fun s p id => s.acceptTensor p id h false t))

/-- TENSOR_LOAD EXPAND (R242, R243). -/
def execTensorExpand (h : DescHdr) (t : TensorLoad) (s : State) : Host.Outcome State Fault Refusal :=
  .next (s.begin h 0x32 (.tensorExpand h t) (tensorBad s h t true) (fun s p => s.tensorCheck p h.stream t)
    (fun s p id => s.acceptTensor p id h true t))

/-- TENSOR_LOAD_DONE (R243 to R245). -/
def execTensorLoadDone (die : Fin 2) (s : State) : Host.Outcome State Fault Refusal := .next (s.tensorEnds die)

end Sys2Proof.Machine
end

