-- ==== Sys2Proof/Machine/Partition.lean ====
section
/-! DEFINITION. Partitions as wholes: bring-up, the release of held work, new windows, the application of a reload, and the
scrub (R43 to R50, R59 to R62, R110, R112, R145, R217, R347, R389). -/

namespace Sys2Proof.Machine

/-- What is left of a range of addresses once the windows given have been taken out of it. -/
def uncovered : List Window → Nat × Nat → List (Nat × Nat)
  | [], r => if r.1 < r.2 then [r] else []
  | w :: ws, r =>
    if w.limit ≤ r.1 || r.2 ≤ w.base then uncovered ws r
    else uncovered ws (r.1, min r.2 w.base) ++ uncovered ws (max r.1 w.limit, r.2)

/-- The PARTITION record and its companions assign no resources (R43). -/
def noResources (r : PartRec) (n : Conf) : Bool :=
  r.pairs.isEmpty && r.clusterMask == 0 && r.lineMask == 0 && r.weights.all (· == 0) && r.keyCount == 0 && r.syncCount == 0 &&
    r.groupCount == 0 && r.streamCount == 0 && r.cache.all (· == 0) && r.dma.all (· == 0) && n.windows.isEmpty && n.limits.isEmpty

/-- The image of a PROGRAM record (R91, R217). -/
def imageOfRec (r : ProgRec) (load : Nat) : ProgImage :=
  { part := r.part, index := r.index, clusters := r.clusters, cores := r.cores, entry := r.entry, watchdog := r.watchdog, text := r.text,
    data := r.data, load := load }

/-- Slots that a configuration gives magazines of a partition, ascending. -/
def Conf.slotsOf (c : Conf) (p : Nat) : List Nat := sortBy (fun a b => decide (a ≤ b)) (((c.blobs.filter (·.part == p)).map (·.slot)).eraseDups)

/-- The blobs of a slot in order of position. -/
def Conf.blobsOf (c : Conf) (slot : Nat) : List KeyBlobRec :=
  sortBy (fun a b => decide (a.pos ≤ b.pos)) (c.blobs.filter (·.slot == slot))

/-- Header of a descriptor's command. -/
def instrHdr : Instr → Option DescHdr
  | .pealStart h _ | .pealStatus h _ | .groupDefine h _ | .groupRemove h _ | .memPut h _ _ | .memGet h _ | .memAtomic h _ _
  | .soAdd h _ _ | .soWaitGe h _ _ _ | .soReset h _ | .soRead h _ | .progLoadBegin h _ | .progLoadData h _ _ _ | .progLoadEnd h _ _
  | .progInvoke h _ | .tensorPlace h _ | .tensorExpand h _ | .stepEnd h _ | .counterRead h _ _ _ | .hintNextEvent h _ _ => some h
  | _ => none

/-- A core with nothing resident and its memories zero (R59). -/
def blankCore (c : Core) : Core := { Core.reset with faulty := c.faulty }

namespace State

/-! ### Held work -/

/-- What waits for new windows, for a mirror or for a slice goes on: held descriptors, remote operations, cores, DMA jobs and
expanders (R29, R50, R405). -/
def releaseLater (s : State) (p : Nat) : State :=
  let s := (s.descs.filter (fun d => d.part == p && d.hold == .later)).foldl (fun s d =>
    (s.updDesc d.id (fun x => { x with hold := .running })).resume d.id d.cmd) s
  let s := (s.remoteOps.filter (fun r => r.part == p && r.held.isSome)).foldl (fun (s : State) (r : RemoteOp) => match r.held with
    | some i => ({ s with remoteOps := mapWhen (fun y => y.id == r.id) (fun y => { y with held := none }) s.remoteOps } : State).resume r.id i
    | none => s) s
  let s := (List.range 16).foldl (fun s c => (s.wakeCores c).startDma c) s
  [0, 1].foldl (fun s d => if (s.expander d).head?.any (fun j => j.blocked) then s.handOnce (.tensorLoadDone (Fin.ofNat 2 d)) else s) s

/-! ### Windows (R50) -/

/-- An access of a partition checked against the windows in force has not ended. -/
def accessesOpen (s : State) (p : Nat) : Bool :=
  let own := fun (id : Nat) => (s.inv id).any (fun v => v.part == p)
  s.nodeOps.any (fun o => o.part == p) || s.ctxs.any (fun c => c.part == p && !c.ops.isEmpty) || s.xfers.any (fun x => x.part == p) ||
  s.clusters.toList.any (fun c => c.streamQ.any (fun j => own j.inv) || c.dmaQ.any (fun j => own j.inv)) ||
  s.engines.toList.any (fun e => e.queue.any (fun j => own j.inv)) || (s.expanders.flatten).any (fun j => j.part == p)

/-- The windows given take effect, and the accesses held for them are checked against them (R50). -/
def setWindows (s : State) (p : Nat) (ws : List Window) : State :=
  let old := s.mirrored p
  let below := (List.range 64).map s.pagesBelow
  let s : State := { s with conf := { s.conf with windows := s.conf.windows.filter (fun w => w.part != p) ++ ws } }
  ((s.updPart p (fun q => { q with newWindows := none })).mirrorsAfter p old below).releaseLater p

/-- The configuration that stands once every waiting window has taken effect: what a reload is checked against (R111). -/
def plannedConf (s : State) : Conf :=
  (List.range 64).foldl (fun c p => match (s.part p).newWindows with
    | some ws => { c with windows := c.windows.filter (fun w => w.part != p) ++ ws }
    | none => c) s.conf

/-- Former resources of the partitions that await a scrub (R60, R111). -/
def awaiting (s : State) : List (PartRec × List Window) := (List.range 64).flatMap (fun p => (s.part p).scrubbing)

/-! ### Bring-up (R389) -/

/-- The pairs of a partition enter the map in place of its old ones, and its candidate sets are rebuilt (R117, R254). -/
def mapPairs (s : State) (p : Nat) (ps : List (Nat × Nat)) (boundary : Bool) : State :=
  (s.updPart p (fun q => { q with pairs := ps })).rebuildCands p boundary

/-- The programs of a partition are exactly those of the records given (R217). -/
def setProgs (s : State) (p : Nat) (rs : List ProgRec) : State :=
  let s : State := { s with progs := s.progs.filter (fun g => g.part != p) }
  let s := s.updPart p (fun q => { q with load := none, stagedProgs := [] })
  rs.foldl (fun s r => ({ s with nextLoad := s.nextLoad + 1 } : State).putProg (imageOfRec r s.nextLoad)) s

/-- A cluster's scratch and the memories of its cores are zero (R59, R389). -/
def zeroCluster (s : State) (c : Nat) : State :=
  let s := s.updCluster c (fun k => { k with scratch := [] })
  (List.range 16).foldl (fun s k => s.updCore (16 * c + k) blankCore) s

/-- Stage 9 for one partition: pairs mapped, its memories, sync objects, groups and traps zero, programs written, groups
defined with peal base 0 (R389). -/
def bringUp (s : State) (p : Nat) : State :=
  match s.conf.partOf p with
  | none => s
  | some r =>
    let s := ((List.range 16).filter (fun c => r.hasCluster c)).foldl zeroCluster s
    let s : State := { s with
                      syncs := s.syncs.filter (fun x => !(r.hasSync x.1)),
                      groups := s.groups.filter (fun g => g.part != p) ++
                        ((s.conf.groups.filter (fun g => g.part == p)).map (fun g => Group.fresh p g.group true)) }
    let s := s.updPart p (fun q =>
      { q with step := 0, stepEnd := none, nextInvocation := 0, trapSeq := 0, traps := [], hint := none, reload := none, newWindows := none,
               scrubbing := [], inStep := false,
               lostSlices := (List.range 4).filter (fun k => (s.sliceOf k).retired) })
    (s.setProgs p (s.conf.progs.filter (fun g => g.part == p))).mapPairs p r.pairs false

/-- A slot gets its magazine; line ports that use it take their line keys (R340, R342). -/
def installSlot (s : State) (slot : Nat) : Option State := do
  let s ← s.install slot (s.conf.blobsOf slot)
  pure (if ((s.keySlot slot).map KeySlot.usage) == some 2 then s.lineActivateAll slot else s)

/-- Every slot of a partition that is EMPTY gets its magazine; none when entropy is wanting (R340, R355). -/
def installSlots (s : State) (p : Nat) : Option State :=
  ((s.conf.slotsOf p).filter (fun n => (((s.keySlot n).map KeySlot.state).getD .empty) == SlotState.empty)).foldl
    (fun s n => s.bind (fun t => t.installSlot n)) (some s)

/-- A partition cannot be brought up: a BASALT window touches a retired stack, or every pair lies on a port that is out of
service (R389). -/
def bringUpFails (s : State) (p : Nat) : Bool :=
  (s.windows p).any (fun w => w.kind == 3 && s.boot.stackOff.any (fun k => decide (w.base < (k + 1) * stackSize) && decide (k * stackSize < w.limit))) ||
  (match s.conf.partOf p with
   | some r => !r.pairs.isEmpty && r.pairs.all (fun q => !(s.portUp q.1))
   | none => false)

/-! ### Work that ends (R59 step 2, R60) -/

/-- A stream ends because its partition no longer holds its ID: RESET while OPEN, what is outstanding on it ended, holds
released, its context gone (R322; log entry 15). -/
def removeStream (s : State) (k : CtxKey) : State :=
  match s.ctx k with
  | none => s
  | some c =>
    let s := if c.state == .open then s.queueReset c .streamFailed else s
    let s := s.unqueueCtx k
    let s := (ctxBufs c).foldl decRef s
    let s := (s.ctxItems k).foldl dropItem s
    let s := c.ops.foldl (fun s o => s.answerOp o.origin .streamFailed []) s
    (s.failPealsOn k .streamFailed).dropCtx k

/-- The streams of a partition that satisfy `f` end. -/
def removeStreams (s : State) (p : Nat) (f : Nat → Bool) : State :=
  ((s.ctxs.filter (fun c => c.part == p && f c.key.stream)).map Ctx.key).foldl removeStream s

/-- Invocations of a partition on the clusters that satisfy `f`, with all their work, are no more. -/
def dropInvocations (s : State) (p : Nat) (f : Nat → Bool) : State :=
  let gone := (s.invs.filter (fun v => v.part == p && f v.cluster)).map Invocation.id
  let live := fun (id : Nat) => !(gone.contains id)
  let s : State := { s with
    invs := s.invs.filter (fun v => live v.id),
    engines := s.engines.map (fun e => { e with queue := e.queue.filter (fun j => live j.inv) }),
    clusters := s.clusters.map (fun c =>
      { c with streamQ := c.streamQ.filter (fun j => live j.inv), dmaQ := c.dmaQ.filter (fun j => live j.inv),
               waiting := c.waiting.filter live }),
    cores := s.cores.map (fun c => if c.inv.any (fun i => !(live i)) then blankCore c else c) }
  ((List.range 16).filter f).foldl (fun s c => s.updCluster c (fun k =>
    if k.cvHolder.any (fun h => (s.core h).inv.isNone) then { k with cvHolder := none, cvWaiting := [] } else k)) s

/-- Buffers of a partition go back to their pools (R59 step 4). -/
def freeBuffers (s : State) (p : Nat) : State :=
  (s.sw.bufs.filter (fun b => b.part == p)).foldl (fun s b =>
    s.takeBuf (b.die, b.pool, b.ptr) (fun q => if b.bad then { q with quarantined := q.quarantined ++ [(b.ptr, p)] }
      else { q with freed := (b.ptr, p) :: q.freed })) s

/-- What stands handed on belongs to a partition: a descriptor or a completion of its pairs, or a frame of its that has left the receive
stage's queue (R117, R121). -/
def handedOf (p : Nat) (h : Option Nat × Instr) : Bool :=
  match h with
  | (none, .nodeCompletionRx _ _ c _) => c.owner == some p
  | (none, i) => (instrHdr i).any (fun d => d.owner == some p)
  | (some q, .localFrameRx _ _) => q == p
  | _ => false

/-- A message of another gateway for a partition (R159). -/
def carriesFor (p : Nat) : Instr → Bool
  | .exponentUp q _ | .exponentDown q _ | .partialUp q _ | .resultDown q _ | .abort q _ => q.val == p
  | _ => false

/-- Frames of a partition between their check and their effect are dropped, and free their units (R59 step 2, R117, R121). -/
def dropFrames (s : State) (p : Nat) : State :=
  let s := (List.range 64).foldl (fun (s : State) (n : Nat) =>
    ((s.port n).rxq.filter (fun f => f.1 == p)).foldl (fun s f => s.giveUnits n (unitsOf f.2.2.length))
      (s.updPort n (fun q => { q with rxq := q.rxq.filter (fun f => f.1 != p) }))) s
  let gone := s.handed.filter (handedOf p)
  gone.foldl (fun (s : State) (h : Option Nat × Instr) => match h.2 with
    | .localFrameRx n x => s.freeRx n (unitsOf x.length)
    | i => match instrHdr i with
      | some d => s.freeRx d.port d.units
      | none => s) { s with handed := s.handed.filter (fun h => !(handedOf p h)) }

/-- Steps 2 to 4 of R59: work in flight aborted, key slots erased, buffers freed. -/
def abortPart (s : State) (p : Nat) : State :=
  let s := s.dropFrames p
  let s : State := { s with slices := s.slices.map (fun x => { x with early := x.early.filter (fun i => !(carriesFor p i)) }) }
  let s : State := { s with descs := s.descs.filter (fun d => d.part != p), waits := s.waits.filter (fun w => w.part != p) }
  let s := (s.failPeals p .streamFailed).dropInvocations p (fun _ => true)
  let s : State := { s with
                    nodeOps := s.nodeOps.filter (fun o => o.part != p), xfers := s.xfers.filter (fun x => x.part != p),
                    remoteOps := s.remoteOps.filter (fun r => r.part != p) }
  let s := [0, 1].foldl (fun s d =>
    let first := (s.expander d).head?.any (fun j => j.part == p)
    let s := s.updExpander d (fun l => l.filter (fun j => j.part != p))
    if first then s.startTensor d else s) s
  let s := s.removeStreams p (fun _ => true)
  let own := (s.keys.slots.filter (fun k => k.part == p)).map KeySlot.slot
  let s := s.eraseSlots p (own ++ ((s.conf.partOf p).elim [] keyRange).filter (fun n => !(own.contains n)))
  let s := ((s.sw.items.filter (fun i => i.part == p)).map Item.id).foldl dropItem s
  s.freeBuffers p

/-! ### The scrub (R59) -/

/-- A partition enters SCRUBBING: steps 1 to 4 of R59. -/
def enterScrub (s : State) (p cause : Nat) : State :=
  -- what it holds now, with the windows that a reload has given it, and what a reload has taken from it
  let held := (s.conf.partOf p).map (fun r => (r, s.windows p ++ (s.part p).newWindows.getD []))
  let old := (s.part p).scrubbing ++ held.toList
  let s := s.setPState p .scrubbing cause
  let s := (s.updPart p (fun q => { q with pairs := [], candPairs := [], candLines := [] })).endMirror p
  let below := (List.range 64).map s.pagesBelow
  let s := s.abortPart p
  let s := ((List.range 16).filter (fun c => old.any (fun o => o.1.hasCluster c))).foldl needCluster s
  let s : State := { s with conf := s.conf.without p }
  let s := (s.setProgs p []).slicesForget p (fun _ => true)
  let s := s.updPart p (fun q =>
    { q with scrubbing := old, reload := none, stepEnd := none, inStep := false,
             newWindows := none, hint := none })
  s.mirrorsAfter p [] below

/-- Memory of clusters and windows written with zeros, less what the windows in `keep` cover (R59 step 5, R60). -/
def zeroMemory (s : State) (clusters : List Nat) (ws keep : List Window) : State :=
  let s := clusters.foldl zeroCluster s
  ws.foldl (fun (s : State) (w : Window) =>
    let rs := uncovered (keep.filter (fun v => v.kind == w.kind && v.cluster == w.cluster)) (w.base, w.limit)
    if w.kind == 2 then rs.foldl (fun s r => s.updCluster w.cluster (fun k => { k with scratch := memClear k.scratch r.1 (r.2 - r.1) })) s
    else if w.kind == 3 then rs.foldl (fun (s : State) (r : Nat × Nat) => { s with basalt := memClear s.basalt r.1 (r.2 - r.1) }) s
    else s) s

/-- A value of set 0x05 (R436). -/
def partValue (s : State) (p i : Nat) : Nat :=
  match i with
  | 0 => (s.part p).step
  | 1 => (s.part p).nextInvocation
  | 2 => (s.part p).trapSeq
  | _ => s.ctr (.part p i)

/-- Payloads of RELEASE_COUNTS: two counters of set 0x05 an entry, its place as the cause (R440, R478). -/
def releaseCounts (s : State) (p : Nat) : List Octets :=
  (List.range 8).map (fun k => oct k ++ ([2 * k, 2 * k + 1].filter (fun i => i < 15)).flatMap (fun i =>
    oct i ++ leBytes 4 (s.partValue p i % 2 ^ 32)))

/-- Steps 5 and 6 of R59, and FREE. -/
def finishScrub (s : State) (p : Nat) : State :=
  let s := (s.part p).scrubbing.foldl (fun (s : State) (x : PartRec × List Window) =>
    let s := s.zeroMemory ((List.range 16).filter (fun c => x.1.hasCluster c)) x.2 []
    { s with syncs := s.syncs.filter (fun y => !(x.1.hasSync y.1)) }) s
  let s : State := { s with
                    groups := s.groups.filter (fun g => g.part != p), ctxs := s.ctxs.filter (fun c => c.part != p),
                    caches := s.caches.filter (fun x => x.2.1 != p) }
  let s := s.raiseAll 0x0402 (some p) (s.releaseCounts p)
  let s : State := { s with ctrs := s.ctrs.filter (fun c => ctrOwner c.1 != some p) }
  let s := s.updPart p (fun q => { PartState.reset with state := q.state, reloadNumber := q.reloadNumber })
  s.setPState p .free 7

/-! ### Reloads (R110, R112) -/

/-- The groups of a partition at a reload: those of its records, and those defined by GROUP_DEFINE since the last start or reload
whose ID it still holds (R145). -/
def reloadGroups (s : State) (p : Nat) (r : PartRec) (rs : List GroupRec) : State :=
  let named := rs.map (fun g => g.group.group)
  let gone := (s.groups.filter (fun g => g.part == p && !(named.contains g.defn.group) && (g.fromRecord || !(r.hasGroup g.defn.group)))).map
    (fun g => g.defn.group)
  let s := gone.foldl (fun s gid => s.dropGroup p gid (r.hasGroup gid)) s
  let s : State := { s with groups := mapWhen (fun g => g.part == p && !(gone.contains g.defn.group)) (fun g => { g with fromRecord := true }) s.groups }
  rs.foldl (fun (s : State) (d : GroupRec) =>
    match s.group p d.group.group with
    | none => { s with groups := s.groups ++ [Group.fresh p d.group true] }
    | some g =>
      let s := if g.defn == d.group then s else s.failList p (s.openPeals p d.group.group) .memberMissing
      s.updGroup p d.group.group (fun x => { x with defn := d.group, fromRecord := true })) s

/-- The blobs that a slot was last given: those staged, else those of its magazine (R347). -/
def lastBlobs (k : KeySlot) : List KeyBlobRec := ((k.staged.map Magazine.blobs).getD k.mag.blobs)

/-- The key slots of a partition at a reload: erased, installed, rewritten or left (R347, R348). -/
def reloadKeys (s : State) (p : Nat) (r : PartRec) (n : Conf) : State :=
  let held := n.slotsOf p
  let own := (s.keys.slots.filter (fun k => k.part == p)).map KeySlot.slot
  let all := (own ++ (s.conf.partOf p).elim [] keyRange ++ keyRange r).eraseDups
  let s := s.eraseSlots p (all.filter (fun n => !(r.hasKey n && held.contains n)))
  held.foldl (fun (s : State) (slot : Nat) =>
    let bs := n.blobsOf slot
    match s.keySlot slot with
    | none => (s.install slot bs).getD s
    | some k =>
      if k.state == .empty then (s.install slot bs).getD s
      else if lastBlobs k == bs then s
      else if some k.usage == bs.head?.map KeyBlobRec.usage then (s.rewrite slot bs).getD s
      else ((s.eraseSlot slot).install slot bs).getD (s.eraseSlot slot)) s

/-- A reload would install or rewrite a slot (R111, R355). -/
def wantsKeys (s : State) (p : Nat) (n : Conf) : Bool :=
  (n.slotsOf p).any (fun slot => match s.keySlot slot with
    | none => true
    | some k => k.state == .empty || lastBlobs k != n.blobsOf slot)

/-- A reload of a partition that is ACTIVE or HALTED is applied: the partition is RELOADING, its new resources are given,
work bound to removed ones ends, and its windows change once old accesses have ended (R43, R50, R60, R110). -/
def applyReload (s : State) (p : Nat) (n : Conf) : State :=
  match s.conf.partOf p, n.parts.head? with
  | some old, some new =>
    let ws := s.windows p
    let s := s.setPState p .reloading 4
    let s := s.updPart p (fun q => { q with reload := none, scrubbing := [(old, ws)] })
    let s := s.reloadGroups p new n.groups
    let s := (s.waits.filter (fun w => w.part == p && !(new.hasSync w.sync))).foldl (fun s w => s.complete w.desc .notPermitted []) s
    let s := (s.invs.filter (fun v => v.part == p && !(new.hasCluster v.cluster))).foldl (fun (s : State) (v : Invocation) => match v.purpose with
      | .desc d => s.complete d (if v.ended.isSome then invStatus v else .hangRestart) (invBody v)
      | .projection .. => s) s
    let s := s.dropInvocations p (fun c => !(new.hasCluster c))
    let s := ((List.range 16).filter (fun c => old.hasCluster c && !(new.hasCluster c))).foldl needCluster s
    let s := s.removeStreams p (fun k => !(new.hasStream k))
    let s := s.reloadKeys p new n
    let open' := s.accessesOpen p
    let c := s.conf.merge p n
    let s : State := { s with conf := { c with windows := c.windows.filter (fun w => w.part != p) ++ ws } }
    let s := s.setProgs p (n.progs.filter (fun g => g.part == p))
    -- a slice of which the partition keeps no weight waits for its boundary no longer (R29)
    let s := s.slicesForget p (fun k => s.weightOn p k == 0)
    let s := (s.updPart p (fun q => { q with newWindows := some n.windows })).mapPairs p new.pairs (s.part p).inStep
    if open' then s else s.setWindows p n.windows
  | _, _ => s.updPart p (fun q => { q with reload := none })

/-- A reload's scrub of removed resources is complete and the new ones are in place: ACTIVE, or SCRUBBING where none are
assigned (R43, R60). -/
def finishReload (s : State) (p : Nat) : State :=
  match s.conf.partOf p, (s.part p).scrubbing with
  | some new, [(old, ws)] =>
    let s := s.zeroMemory ((List.range 16).filter (fun c => old.hasCluster c && !(new.hasCluster c))) ws (s.windows p)
    let s : State := { s with syncs := s.syncs.filter (fun x => !(old.hasSync x.1) || new.hasSync x.1) }
    if noResources new { s.conf with windows := s.windows p, limits := s.conf.limits.filter (fun l => l.part == p) } then s.enterScrub p 4
    else (s.updPart p (fun q => { q with scrubbing := [] })).setPState p .active 4
  | _, _ => s

/-- What waits for a partition that has entered HALTED or a step boundary is applied: a release, or a reload that still
passes step 10 of R99; one that fails is discarded with an event. A reload is left waiting while it wants keys and the source
is not HEALTHY, at a step boundary while the source is FAILED, and while a plane that it needs is folded (R112, R355, R426). -/
def applyWaiting (s : State) (p : Nat) : State :=
  match (s.part p).reload with
  | none => s
  | some w =>
    if w.release then s.enterScrub p 5
    else if (s.keys.ent == .failed && (s.part p).inStep) || (s.wantsKeys p w.conf && s.keys.ent != .healthy) then s
    else if !(s.awakeFor w.conf) then s.wakeFor w.conf
    else if crossOk (s.plannedConf.merge p w.conf) true s.awaiting then s.applyReload p w.conf
    else (s.updPart p (fun q => { q with reload := none })).raise 0x0302 none (oct (statusCode .notPermitted) ++ leBytes 2 0x0D03)

end State

/-! ### Meanings -/

/-- PARTITION_BRINGUP_DONE (R43, R112, R355): after Ready, a STARTING partition whose slots are installed enters ACTIVE with
step number 0, or HALTED when its bring-up fails; it stays where entropy is wanting. -/
def execPartitionBringupDone (p : PartId) (s : State) : Host.Outcome State Fault Refusal :=
  if (s.part p).state != .starting || s.boot.phase != .ready then .next s
  else match s.installSlots p with
    | none => .next s
    | some s => .next (if s.bringUpFails p then s.setPState p .halted 3 else (s.setPState p .active 2).beginMirror p)

/-- SCRUB_DONE (R59). -/
def execScrubDone (p : PartId) (s : State) : Host.Outcome State Fault Refusal :=
  .next (if (s.part p).state == .scrubbing then s.finishScrub p else s)

/-- WINDOW_SWITCH (R50): the last access checked against the old windows has ended. -/
def execWindowSwitch (p : PartId) (s : State) : Host.Outcome State Fault Refusal :=
  match (s.part p).newWindows with
  | some ws => .next (if s.accessesOpen p then s else s.setWindows p ws)
  | none => .next s

end Sys2Proof.Machine
end

