-- ==== Sys2Proof/Machine/Faults.lean ====
section
/-! DEFINITION. Faults of units in service, and the substitution of units (R24 to R29, R412). -/

namespace Sys2Proof.Machine

namespace State

/-! ### Spares (R28, R446) -/

/-- Spare warning level of the running SPARE_POLICY (R82, R93). -/
def warningLevel (s : State) : Nat := (s.conf.spare.map SpareRec.warning).getD 1

/-- Spares left of a unit kind on a die (R446). -/
def sparesLeft (s : State) (die kind : Nat) : Nat := s.boot.spares.getD (8 * die + kind) 0

/-- Spares of a unit kind on a die are set, with an event at or below the warning level (R440). -/
def setSpares (s : State) (die kind n : Nat) : State :=
  let s : State := { s with boot := { s.boot with spares := s.boot.spares.set (8 * die + kind) n } }
  if n ≤ s.warningLevel then s.raise 0x0205 none (oct 0 ++ oct die ++ oct kind ++ oct n) else s

/-- RETIRED (R440, R478): cause, die, block kind, block number. -/
def retiredEvent (s : State) (cause die kind n : Nat) : State := s.raise 0x0204 none (oct cause ++ oct die ++ oct kind ++ oct n)

/-- A cluster is retired (R28). -/
def retireCluster (s : State) (c : Nat) : State :=
  if (s.cluster c).retired then s else (s.updCluster c (fun k => { k with retired := true })).retiredEvent 1 (c / 4) 1 c

/-- A matrix engine of a cluster is substituted where a spare is left; the answer tells whether one was (R28). -/
def substituteEngine (s : State) (e : Nat) : Bool × State :=
  let n := s.boot.engineSpares.getD (e / 4) 0
  if n == 0 then (false, s)
  else
    let s : State := { s with boot := { s.boot with engineSpares := s.boot.engineSpares.set (e / 4) (n - 1) } }
    (true, (s.updEngine e (fun y => { y with faulty := false })).setSpares (e / 16) 0 (s.sparesLeft (e / 16) 0 - 1))

/-- A Tabor core is substituted where a spare is left (R28). -/
def substituteCore (s : State) (k : Nat) : Bool × State :=
  let n := s.boot.coreSpares.getD (k / 16) 0
  if n == 0 then (false, s)
  else
    let s : State := { s with boot := { s.boot with coreSpares := s.boot.coreSpares.set (k / 16) (n - 1) } }
    (true, (s.updCore k (fun y => { y with faulty := false, resident := none })).setSpares (k / 64) 1 (s.sparesLeft (k / 64) 1 - 1))

/-- Compute-unit substitution of one cluster at its partition's step boundary: a cluster with a faulty unit and no spare of its
kind is retired (R26 to R28, R412). -/
def substituteCluster (s : State) (c : Nat) : State :=
  let es := ((List.range 4).map (fun i => 4 * c + i)).filter (fun e => (s.engine e).faulty)
  let ks := ((List.range 16).map (fun i => 16 * c + i)).filter (fun k => (s.core k).faulty)
  let s := if es.isEmpty && ks.isEmpty then s else s.needCluster c
  let r := es.foldl (fun r e => let t := substituteEngine r.2 e; (r.1 && t.1, t.2)) (!((s.cluster c).faulty || (s.cluster c).cvFaulty), s)
  let r := ks.foldl (fun r k => let t := substituteCore r.2 k; (r.1 && t.1, t.2)) r
  if r.1 then r.2 else r.2.retireCluster c

/-! ### Carillon slices (R29) -/

/-- Partitions with weight on a slice. -/
def weighted (s : State) (k : Nat) : List Nat :=
  (s.conf.parts.filter (fun r => r.weights.getD k 0 != 0)).map (·.part)

/-- A step boundary of a partition, as the slices see it: retired ones leave its resource list, and a faulty one waits for it
no longer (R29). -/
def slicesPass (s : State) (p : Nat) : State :=
  (s.updPart p (fun q => { q with lostSlices := (List.range 4).filter (fun k => (s.sliceOf k).retired) })).slicesForget p (fun _ => true)

/-- The partial of a chunk is discarded: the chunk never completes (R29, R412). -/
def losePartial (s : State) (p gid n c : Nat) : State :=
  match s.peal p gid n with
  | some pl => if (chunkOf pl c).result.isSome then s else s.updChunk p gid n c (fun x => { x with lost := true })
  | none => s

/-- An adder group of a slice is faulty: which one is a free value, as far as it is not faulty already (log entry 3). -/
def adderFault (s : State) (k : Nat) : State :=
  if (s.sliceOf k).retired then s
  else
    let f := s.free
    let g := f.1.toNat % 64
    let used := (s.sliceOf k).faulty
    let pick := (((List.range 64).map (fun i => (g + i) % 64)).find? (fun x => !used.contains x)).getD g
    f.2.updSlice k (fun x => { x with
      faulty := (x.faulty ++ [pick]).eraseDups,
      waitParts := x.waitParts.filter (fun w => w.1 != pick) ++ (s.weighted k).map (fun p => (pick, p)) }) |>.closeSlice k

/-- The faulty groups of a slice that wait for no boundary are substituted when the slice has no open peal; one whose spare lane is
gone retires the slice. What the slice held then goes on (R28, R29). -/
def substituteSlice (s : State) (k : Nat) : State :=
  let x := s.sliceOf k
  if !x.closed || s.groups.any (fun g => g.defn.slice == k && !g.peals.isEmpty) then s
  else
    let s : State :=
      let due := x.faulty.filter (fun g => !(x.waitParts.any (fun w => w.1 == g)))
      if due.any (fun g => x.spareUsed.contains g) then
        (s.updSlice k (fun y => { y with closed := false, faulty := [], waitParts := [], retired := true, early := [] })).retiredEvent 1 k 2 k
      else (s.updSlice k (fun y => { y with
        closed := false, faulty := y.faulty.filter (fun g => !(due.contains g)),
        spareUsed := y.spareUsed ++ due, early := [] })).setSpares k 2 (s.sparesLeft k 2 - due.length)
    x.early.foldl hand ((List.range 64).foldl releaseLater s)

/-! ### Faults (R412) -/

/-- Stream work of a cluster whose stream unit is faulty. -/
def streamFault (s : State) (c : Nat) : State :=
  let ids := (s.cluster c).streamQ.map StreamJob.inv
  let s := s.updCluster c (fun x => { x with faulty := true, streamQ := [] })
  ids.eraseDups.foldl (fun s id => (s.hangInv id).checkInv id) s

/-- Work of a faulty engine. -/
def engineFault (s : State) (e : Nat) : State :=
  let ids := (s.engine e).queue.map MatJob.inv
  let s := s.updEngine e (fun _ => ⟨[], true⟩)
  ids.eraseDups.foldl (fun s id => (s.hangInv id).checkInv id) s

/-- A logical cipher core of a line die is out of service until a start or a wake (R26, R28). -/
def cipherFault (s : State) (ld : Nat) : State :=
  { s with boot := { s.boot with cipher := s.boot.cipher.set ld (s.boot.cipher.getD ld 0 - 1) } }

/-- An opened body of a stream that has not been handled yet is dropped as one that does not open (R308, R412). -/
def dropOpen (s : State) (m stream : Nat) : State :=
  let hit : Option Nat × Instr → Bool := fun h => match h.2 with
    | .dataSegmentRx l g _ => l.val == m && g.stream == stream
    | .streamOpenRx l g _ => l.val == m && g.stream == stream
    | .streamResetRx l g _ => l.val == m && g.stream == stream
    | _ => false
  match s.handed.findIdx? hit, s.streamPart stream with
  | some i, some p => ({ s with handed := s.handed.eraseIdx i } : State).bump (.line p m 3)
  | _, _ => s

/-- The item, or the received segment, whose buffer has a double-bit error is dropped (R412; log entry 16). -/
def dropBuffer (s : State) (b : Nat × Nat × Nat) : State :=
  match s.sw.items.find? (fun i => i.buf == some b) with
  | some i =>
    match loadKey i.load with
    | none => s.dropItem i.id
    | some k => if (s.ctx k).any (fun c => c.sending.any (fun x => x.1 == i.id)) then s.failStream k .streamFailed true else s.endItem i .streamFailed
  | none =>
    match s.ctxs.find? (fun c => c.stored.any (fun x => x.buf == some b)) with
    | some c => (s.updCtx c.key (fun x => { x with stored := x.stored.filter (fun y => y.buf != some b) })).decRef b
    | none =>
      match s.ctxs.find? (fun c => (ctxBufs c).contains b) with
      | some c => s.failStream c.key .streamFailed true
      | none => s

/-- Die of a descriptor's device-local address (R14, R86). -/
def dieOfMem (i : Instr) : Nat :=
  match i with
  | .memGet _ m => if m.space == .scratch then m.cluster / 4 else 4 + m.addr / (3 * stackSize)
  | _ => 0

/-- A fault detected in a unit (R412). -/
def unitFaults (s : State) (u : FaultUnit) : State :=
  match u with
  | .tabor core =>
    let s := s.updCore core (fun c => { c with faulty := true })
    match (s.core core).inv with
    | some id => s.hangInv id
    | none => s
  | .streamUnit c => s.streamFault c
  | .engine e => s.engineFault e
  | .checkValue c =>
    let s := s.updCluster c (fun k => { k with cvFaulty := true })
    match (s.cluster c).cvHolder.bind (fun k => (s.core k).inv) with
    | some id => s.hangInv id
    | none => s
  | .cipherSeal m => (s.cipherFault (lineDie m)).sealEnds m true
  | .cipherOpen m stream => (s.cipherFault (lineDie m)).dropOpen m stream
  | .cipherBulk die id =>
    let s := s.cipherFault die
    s.abortJobs (fun b => b.id == id && b.die == die.val)
  | .buffer die pool ptr => ((s.bump (.eccUncorr die)).updBuf (die, pool, ptr) (fun b => { b with bad := true })).dropBuffer (die, pool, ptr)
  | .memGet id =>
    match s.desc id with
    | some d => if d.opcode == 0x11 then (s.bump (.eccUncorr (dieOfMem d.cmd))).complete id .timeout [] else s
    | none => s
  | .memDma c => if (s.cluster c).dmaQ.head?.any DmaJob.started then (s.bump (.eccUncorr (c / 4))).endDma c .timeout else s
  | .corrected die => s.bump (.eccCorr die)

end State

/-! ### Meanings -/

/-- UNIT_FAULT (R26, R412). -/
def execUnitFault (u : FaultUnit) (s : State) : Host.Outcome State Fault Refusal := .next (s.unitFaults u)

/-- ADDER_GROUP_FAULT (R29, R412). -/
def execAdderGroupFault (slice : SliceId) (use : Option (PartId × Nat × Nat × Nat)) (s : State) : Host.Outcome State Fault Refusal :=
  .next (match use with
    | some (p, gid, n, c) => (s.adderFault slice).losePartial p gid n c
    | none => s.adderFault slice)

/-- SLICE_SUBSTITUTE (R28, R29). -/
def execSliceSubstitute (slice : SliceId) (s : State) : Host.Outcome State Fault Refusal := .next (s.substituteSlice slice)

end Sys2Proof.Machine
end

