-- ==== Sys2Proof/Machine/Mirror.lean ====
section
/-! DEFINITION. The end of a step boundary, and mirroring with its restore (R138, R335, R336, R401 to R411). -/

namespace Sys2Proof.Machine

/-- Octets packed from a bitmap: bit (i mod 8) of octet i / 8 (R403). -/
def bitmapOctets (bs : List Bool) : Octets :=
  (List.range (ceilDiv bs.length 8)).map (fun j =>
    BitVec.ofNat 8 (((List.range 8).map (fun i => if bs.getD (8 * j + i) false then 2 ^ i else 0)).sum))

/-- The bits of such octets. -/
def bitmapBits (n : Nat) (x : Octets) : List Bool := (List.range n).map (fun i => (octetAt (i / 8) x).testBit (i % 8))

/-- GROUP_DEFINE body octets 0 to 47 of a group (R88, R144, R403). -/
def groupBytes (g : GroupDef) : Octets :=
  zeros 2 ++ beBytes 2 g.group ++ beBytes 1 g.axisCount ++ beBytes 1 g.axisMask ++ beBytes 1 g.mode ++ beBytes 1 g.policy ++
    (g.axisOrder.flatMap (beBytes 1)) ++ beBytes 1 g.w ++ beBytes 1 g.p ++ (g.low.flatMap (beBytes 1)) ++ (g.high.flatMap (beBytes 1)) ++
    (g.stride.flatMap (beBytes 1)) ++ beBytes 1 g.slice ++ zeros 1 ++ beBytes 4 g.deadline ++ beBytes 2 g.quorumMin ++ beBytes 2 g.proj ++ zeros 4

/-- Base and limit of mirrored windows 12 to 15, zero when absent (R403). -/
def windowBytes (ws : List Window) : Octets :=
  ([12, 13, 14, 15]).flatMap (fun k => match ws.find? (fun w => w.index == k) with
    | some w => beBytes 8 w.base ++ beBytes 8 w.limit
    | none => zeros 16)

/-- Octets 104 on of a partition record: groups, sync objects, bitmap (R403). -/
def parseRecordBody (x : Octets) : RestoredState :=
  let g := beAt 24 4 x
  let y := beAt 28 4 x
  let n := beAt 32 4 x
  let o := 104 + 56 * g
  { step := beAt 16 8 x, sender := beAt 0 8 x,
    groups := (List.range g).map (fun i => (beAt (104 + 56 * i) 2 x, beAt (108 + 56 * i) 4 x, slice (112 + 56 * i) 48 x)),
    syncs := (List.range y).map (fun i => (beAt (o + 8 * i) 2 x, beAt (o + 8 * i + 4) 4 x)),
    bitmap := bitmapBits n (x.drop (o + 8 * y)) }

namespace State

/-! ### The end of a boundary (R138 steps 4 to 6) -/

/-- Descriptors that a STEP_END held are released, in order; one that a fence holds waits for what came before it (R126,
R138). -/
def releaseStep (s : State) (p : Nat) : State :=
  ((s.descs.filter (fun d => d.part == p && d.hold == .step)).map Desc.id).foldl (fun s id =>
    match s.desc id with
    | none => s
    | some d =>
      let before := (s.waitsFor d.hdr).filter (fun k => k < id)
      let s := s.updDesc id (fun x => { x with beforeStep := x.opcode == 0x01 || x.opcode == 0x31 })
      if before.isEmpty then (s.updDesc id (fun x => { x with hold := .running })).resume id d.cmd
      else s.updDesc id (fun x => { x with hold := .fence before })) s

/-- Steps 4 to 6 of R138: the new step number, the completion, the release of held descriptors; writes that waited for the
mirror go on (R405). -/
def finishStep (s : State) (p n : Nat) : State :=
  let id := (s.part p).stepEnd
  let s := s.updPart p (fun q => { q with step := n % 2 ^ 64, stepEnd := none, inStep := false })
  let s := match id with
    | some d => s.complete d .ok (beBytes 8 (n % 2 ^ 64))
    | none => s
  (s.releaseStep p).releaseLater p

/-! ### Mirroring (R405, R406) -/

/-- The partition record of p with a bitmap (R403). -/
def recordBytes (s : State) (p step : Nat) (bitmap : List Bool) : Octets :=
  let gs := s.groups.filter (fun g => g.part == p)
  let r := s.conf.partOf p
  let ys := (List.range ((r.map PartRec.syncCount).getD 0)).map (fun i => (r.map PartRec.syncFirst).getD 0 + i)
  beBytes 8 s.fixed.uid.toNat ++ beBytes 1 p ++ zeros 7 ++ beBytes 8 step ++ beBytes 4 gs.length ++ beBytes 4 ys.length ++
    beBytes 4 bitmap.length ++ zeros 4 ++ windowBytes (s.mirrored p) ++
    gs.flatMap (fun g => beBytes 2 g.defn.group ++ zeros 2 ++ beBytes 4 g.base ++ groupBytes g.defn) ++
    ys.flatMap (fun y => beBytes 2 y ++ zeros 2 ++ beBytes 4 (s.syncValue y)) ++ bitmapOctets bitmap

/-- A job of a mirror at a stage, with nothing sent. -/
def freshJob (st : MirrorStage) : MirrorJob :=
  { stage := st, left := [], issued := 0, reads := [], pages := [], sent := [], commit := none, record := none, length := 0, failed := false }

/-- A mirror's job set. -/
def setJob (s : State) (p : Nat) (j : MirrorJob) : State := s.updMirror p (fun m => { m with job := some j })

/-- Mirroring begins: both commit copies are read (R405 steps 1 and 2). -/
def startMirror (s : State) (p : Nat) : State :=
  ((s.setJob p (freshJob .commits)).updMirror p (fun m => { m with probed := false })).mirrorGet p [(s.commitAddr p 0, 128), (s.commitAddr p 1, 128)]

/-- The mirror is abandoned: LAGGING, with an event, and STEP_END continues (R406). -/
def abandonMirror (s : State) (p : Nat) : State :=
  (((s.dropJob p).setMirror p .lagging).mirrorEvent p 2).finishStep p ((s.part p).step + 1)

/-- The bitmap with the slots of the pages sent changed over (R405). -/
def flipSlots (bs : List Bool) (pages : List Nat) : List Bool := bs.zipIdx.map (fun b => if pages.contains b.2 then !b.1 else b.1)

/-- A mirror once both commit copies are read. Where the one that counts does not name this Doldex (`uid`) with the sequence it last
committed, each of the `n` pages is dirty; where it is the one whose copy 0 was sent before a failure, the slots are those of its
bitmap (R405 steps 2 to 4). -/
def countedMirror (m : Mirror) (uid n : Nat) (c : Option MirrorCommitRec) : Mirror :=
  let names := fun (q : Nat) => q != 0 && c.any (fun c => c.uid == uid && c.seq == q)
  if names m.seq then m
  else match m.tried with
    | some t => if names t.1 then { m with dirty := List.range n, seq := t.1, bitmap := t.2 } else { m with dirty := List.range n }
    | none => { m with dirty := List.range n }

/-- Both commit copies have been read; the dirty pages are sealed, each on the line die of its stack (R405 steps 2 and 3). -/
def mirrorPages (s : State) (p : Nat) (m : Mirror) (j : MirrorJob) : State :=
  let d := jobData j
  let c := countingCopy p (slice 0 128 d) (slice 128 128 d)
  let m := countedMirror m s.fixed.uid.toNat (s.pageCount p) c
  let s := s.updMirror p (fun _ => { m with job := some { j with stage := .pages, commit := c, pages := m.dirty, reads := [] } })
  let ws := s.mirrored p
  m.dirty.foldl (fun s i =>
    let r := pageRange ws i
    s.addBulk (r.1 / (3 * stackSize)) p true (s.readLocal .basalt 0 r.1 r.2) 0 i (s.pageAddr p i (!(m.bitmap.getD i false)).toNat) []) s

/-- The commit record that a job writes: the next sequence, and the half that the counting commit does not name (R404,
R405). -/
def nextCommit (s : State) (p : Nat) (m : Mirror) (j : MirrorJob) : MirrorCommitRec :=
  { half := 1 - (j.commit.map MirrorCommitRec.half).getD m.half, seq := (j.commit.map MirrorCommitRec.seq).getD m.seq + 1,
    uid := s.fixed.uid.toNat, step := (s.part p).step + 1, pages := m.bitmap.length, length := j.length }

/-- The partition record is sealed (R405 step 4). -/
def mirrorRecord (s : State) (p : Nat) (m : Mirror) (j : MirrorJob) : State :=
  (s.setJob p { j with stage := .record, pages := [0] }).addBulk 0 p true
    (s.recordBytes p ((s.part p).step + 1) (flipSlots m.bitmap j.sent)) 1 0
    (s.halfAddr p (s.nextCommit p m j).half) []

/-- Commit copy c is written; from copy 0 on the commit may count (R405 step 5). -/
def mirrorCopy (s : State) (p : Nat) (m : Mirror) (j : MirrorJob) (c : Nat) : State :=
  let k := s.nextCommit p m j
  let s := s.updMirror p (fun x => { x with tried := some (k.seq, flipSlots m.bitmap j.sent) })
  (s.setJob p { j with stage := if c == 0 then .copy0 else .copy1 }).mirrorPut p (s.commitAddr p c) (mirrorCommitBytes p k)

/-- The commit stands: dirty bits of the pages sent are clear, and the boundary ends (R405 step 6, R408). -/
def mirrorEnds (s : State) (p : Nat) (m : Mirror) (j : MirrorJob) : State :=
  let c := s.nextCommit p m j
  let s := s.updMirror p (fun x => { x with
    dirty := x.dirty.filter (fun i => !(j.sent.contains i)), bitmap := flipSlots m.bitmap j.sent, seq := c.seq, half := c.half,
    tried := none, job := none })
  (s.setMirror p .mirrored).finishStep p ((s.part p).step + 1)

/-- Stages of R405 rather than of a probe or a restore. -/
def mirroring (st : MirrorStage) : Bool := [MirrorStage.commits, .pages, .record, .copy0, .copy1].contains st

/-- A mirror's job goes on once its operations are answered and its pages sealed (R405). -/
def mirrorStep (s : State) (p : Nat) : State :=
  match s.mirrorOf p with
  | none => s
  | some m =>
    match m.job with
    | none => s
    | some j =>
      if !(mirroring j.stage) then s
      else if j.failed then s.abandonMirror p
      else if !j.left.isEmpty || (!j.pages.isEmpty && j.stage != .commits) then s
      else match j.stage with
        | .commits =>
          let s := s.mirrorPages p m j
          if ((s.mirrorOf p).bind Mirror.job).any (fun k => k.pages.isEmpty) then s.hand (.mirrorCommit (fin64 p)) else s
        | .pages => s.mirrorRecord p m j
        | .record => s.mirrorCopy p m j 0
        | .copy0 => s.mirrorCopy p m j 1
        | _ => s.mirrorEnds p m j

/-! ### Probes (R406, R408) -/

/-- A LAGGING partition's probe: one commit copy is read, or the read has ended (R406). -/
def lagProbe (s : State) (p : Nat) : State :=
  match s.mirrorOf p with
  | none => s
  | some m =>
    if (s.part p).mirror != .lagging then s
    else match m.job with
      | none => (s.setJob p (freshJob .probe)).mirrorGet p [(s.commitAddr p 0, 128)]
      | some j =>
        if j.stage != .probe || !j.left.isEmpty then s
        else s.updMirror p (fun x => { x with job := none, probed := x.probed || !j.failed })

/-- A HELD_BACK partition's probe: both copies are read, until the partner answers; with no valid copy it is MIRRORED
(R408). -/
def heldProbe (s : State) (p : Nat) : State :=
  match s.mirrorOf p with
  | none => s
  | some m =>
    if (s.part p).mirror != .heldBack then s
    else match m.job with
      | none => if m.probed then s else (s.setJob p (freshJob .probe)).mirrorGet p [(s.commitAddr p 0, 128), (s.commitAddr p 1, 128)]
      | some j =>
        if j.stage != .probe || !j.left.isEmpty then s
        else
          let d := jobData j
          let s := s.updMirror p (fun x => { x with job := none, probed := !j.failed })
          if j.failed || (countingCopy p (slice 0 128 d) (slice 128 128 d)).isSome then s
          else (s.allDirty p).setMirror p .mirrored

/-! ### Restore (R409, R410) -/

/-- A restore begins: the commit copies are read; it waits while Quartz is UNSET (R410). -/
def startRestore (s : State) (p : Nat) : State :=
  if !s.quartz.set then s
  else (s.setJob p (freshJob .restoreCommit)).mirrorGet p [(s.commitAddr p 0, 128), (s.commitAddr p 1, 128)]

/-- The next page of a restore is read, or the restore is staged (R410). -/
def restorePage (s : State) (p : Nat) (j : MirrorJob) : State :=
  match j.pages, j.record with
  | i :: _, some r =>
    let len := (pageRange (s.mirrored p) i).2
    (s.setJob p { j with stage := .restorePages }).mirrorGet p [(s.pageAddr p i (r.bitmap.getD i false).toNat, len + 44)]
  | [], some r =>
    (s.updMirror p (fun m => { m with job := none, staged := some r, bitmap := r.bitmap, dirty := List.range (s.pageCount p) })).setMirror p .staged
  | _, none => s.restoreFails p

/-- A record opened by a restore passes its checks: partition, windows, page count (R403, R410). -/
def recordOk (s : State) (p : Nat) (x : Octets) : Bool :=
  104 ≤ x.length && octetAt 8 x == p && slice 40 64 x == windowBytes (s.mirrored p) && beAt 32 4 x == s.pageCount p

/-- A restore goes on: what it read has arrived (R410). -/
def restoreStep (s : State) (p : Nat) : State :=
  match s.mirrorOf p with
  | none => s
  | some m =>
    if (s.part p).mirror != .restoring then s
    else match m.job with
      | none => s.startRestore p
      | some j =>
        if j.failed then s.restoreFails p
        else if !j.left.isEmpty then s
        else match j.stage with
          | .restoreCommit =>
            let d := jobData j
            match countingCopy p (slice 0 128 d) (slice 128 128 d) with
            | none => s.restoreFails p
            | some c =>
              if c.length < 44 || 2 ^ 20 < c.length then s.restoreFails p
              else (s.setJob p { j with stage := .restoreRecord, commit := some c }).mirrorGet p [(s.halfAddr p c.half, c.length)]
          | .restoreRecord => (s.setJob p { j with reads := [] }).addBulk 0 p false [] 2 0 0 (jobData j)
          | .restorePages =>
            let a := (pageRange (s.mirrored p) (j.pages.headD 0)).1
            (s.setJob p { j with reads := [] }).addBulk (a / (3 * stackSize)) p false [] 3 (j.pages.headD 0) 0 (jobData j)
          | _ => s

/-! ### Bulk messages (R335, R336) -/

/-- A job fails, and goes on to its end. -/
def failJob (s : State) (p : Nat) : State :=
  match (s.mirrorOf p).bind Mirror.job with
  | none => s
  | some j =>
    (s.setJob p { j with failed := true }).hand (if mirroring j.stage then .mirrorCommit (fin64 p) else .restoreDone (fin64 p))

/-- A seal has ended: the envelope is written into the slot or the half that the commit does not name; the job of an aborted one
fails (R335, R336, R405). -/
def sealedBulk (s : State) (b : BulkJob) (j : MirrorJob) : State :=
  let p := b.part
  if b.aborted || b.key.isEmpty then s.failJob p
  else
    let e := bulkSeal b.key b.salt b.counter b.plain
    let x := envelopeBytes b.salt b.counter e.1 e.2
    let j := if b.purpose == 0 then { j with pages := j.pages.filter (· != b.arg), sent := j.sent ++ [b.arg] }
      else { j with pages := [], length := x.length }
    (s.setJob p j).mirrorPut p b.dest x

/-- An open has ended: the record is checked, or the page is written; a message that does not open is counted and fails the
restore (R336, R400, R410). -/
def openedBulk (s : State) (b : BulkJob) (j : MirrorJob) : State :=
  let p := b.part
  match (if b.aborted || b.key.isEmpty then none else openEnvelope b.key b.salt b.envelope) with
  | none => (s.bump (.bulkDiscard b.die)).failJob p
  | some x =>
    if b.purpose == 2 then
      if s.recordOk p x then s.restorePage p { j with record := some (parseRecordBody x), pages := List.range (s.pageCount p) }
      else s.failJob p
    else
      let r := pageRange (s.mirrored p) b.arg
      if x.length != r.2 then s.failJob p
      else (s.writeLocal .basalt 0 r.1 x).restorePage p { j with pages := j.pages.drop 1 }

/-- A bulk message ends, and the next starts (R331, R336). One whose job is gone writes nothing. -/
def endBulk (s : State) (id : Nat) : State :=
  match s.keys.bulk.find? (fun b => b.id == id && b.started) with
  | none => s
  | some b =>
    let s : State := { s with keys := { s.keys with bulk := s.keys.bulk.filter (fun x => x.id != id) } }
    let s : State := match s.mirrorOf b.part with
      | some m => match m.job with
        | some j => if b.isSeal then s.sealedBulk b j else s.openedBulk b j
        | none => s
      | none => s
    s.startBulk

/-- The staged state of a restore is applied as group admission: groups become exactly the recorded ones with their peal
bases, and sync objects take the recorded values (R411). -/
def applyStaged (s : State) (p : Nat) (r : RestoredState) : State :=
  let s := ((s.groups.filter (fun g => g.part == p)).map (fun g => g.defn.group)).foldl (fun s gid => s.dropGroup p gid false) s
  let held := s.conf.partOf p
  let gs := r.groups.filterMap (fun g =>
    let d := groupAt 0 g.2.2
    if groupFieldsOk d && d.group == g.1 && held.any (fun x => x.hasGroup d.group) then
      some { Group.fresh p d (s.conf.groups.any (fun x => x.part == p && x.group == d)) with base := g.2.1 }
    else none)
  let s : State := { s with groups := s.groups ++ gs }
  let s := (r.syncs.filter (fun y => held.any (fun x => x.hasSync y.1))).foldl (fun s y => (s.setSync y.1 y.2).meetWaits y.1) s
  (s.updMirror p (fun m => { m with staged := none, seq := 0, tried := none, dirty := List.range (s.pageCount p) })).setMirror p .mirrored

end State

/-! ### Meanings -/

/-- MIRROR_COMMIT (R405): what the mirror waited for has been answered, and it goes on to its commit. -/
def execMirrorCommit (p : PartId) (s : State) : Host.Outcome State Fault Refusal := .next (s.mirrorStep p)

/-- MIRROR_TIMEOUT (R406): 2 s without the commit. -/
def execMirrorTimeout (p : PartId) (s : State) : Host.Outcome State Fault Refusal :=
  .next (if ((s.mirrorOf p).bind Mirror.job).any (fun j => State.mirroring j.stage) then s.abandonMirror p else s)

/-- MIRROR_LAG_PROBE (R406). -/
def execMirrorLagProbe (p : PartId) (s : State) : Host.Outcome State Fault Refusal := .next (s.lagProbe p)

/-- HELD_BACK_PROBE (R408). -/
def execHeldBackProbe (p : PartId) (s : State) : Host.Outcome State Fault Refusal := .next (s.heldProbe p)

/-- RESTORE_DONE (R410): what a restore waited for has arrived. -/
def execRestoreDone (p : PartId) (s : State) : Host.Outcome State Fault Refusal := .next (s.restoreStep p)

/-- BULK_MESSAGE_DONE (R331, R335, R336). -/
def execBulkMessageDone (id : Nat) (s : State) : Host.Outcome State Fault Refusal := .next (s.endBulk id)

/-- Partitions that an ADMIT names: one, or every HELD_BACK one (R409). -/
def admitTargets (s : State) (target : Nat) : List Nat :=
  if target == 0xFF then (List.range 64).filter (fun p => (s.part p).mirror == .heldBack) else [target]

/-- ADMIT with op restore (R409, R410). -/
def execAdmitRestore (target : Nat) (s : State) : Host.Outcome State Fault Refusal :=
  let ts := admitTargets s target
  if !(target == 0xFF || (1 ≤ target && target < 64)) then .next (s.reject 0x0D0C .badDescriptor)
  else if !(ts.all (fun p => (s.part p).mirror == .heldBack)) then .next (s.reject 0x0D0C .notPermitted)
  else .next ((ts.foldl (fun s p => ((s.dropJob p).setMirror p .restoring).startRestore p) s).reply 0x0D0C .ok [])

/-- ADMIT with op discard (R408, R409). -/
def execAdmitDiscard (target : Nat) (s : State) : Host.Outcome State Fault Refusal :=
  let ts := admitTargets s target
  if !(target == 0xFF || (1 ≤ target && target < 64)) then .next (s.reject 0x0D0C .badDescriptor)
  else if !(ts.all (fun p => (s.part p).mirror == .heldBack)) then .next (s.reject 0x0D0C .notPermitted)
  else .next ((ts.foldl (fun s p => ((s.dropJob p).allDirty p).setMirror p .mirrored) s).reply 0x0D0C .ok [])

end Sys2Proof.Machine
end

