-- ==== Sys2Proof/Machine/StepEnd.lean ====
section
/-! DEFINITION. STEP_END and the step boundary, COUNTER_READ and the hint (R27, R138 to R140, R434 to R436). -/

namespace Sys2Proof.Machine

/-- The 40 octets of a trap record (R192). -/
def trapBytes (t : TrapRec) : Octets :=
  beBytes 4 t.seq ++ beBytes 1 t.kind ++ beBytes 1 t.cause ++ beBytes 2 t.ident ++ beBytes 4 t.number ++ beBytes 4 t.ns ++
    beBytes 8 t.index ++ beBytes 1 t.unitKind ++ zeros 1 ++ beBytes 2 t.unit ++ zeros 4 ++ beBytes 8 t.secs

/-- Values of 8 octets each (R139). -/
def valueBytes (vs : List Nat) : Octets := vs.flatMap (fun v => beBytes 8 (v % 2 ^ 64))

namespace State

/-! ### The step boundary (R27, R138) -/

/-- Streams of a partition that have FAILED return to IDLE; a later opening draws another incarnation (R322). -/
def idleStreams (s : State) (p : Nat) : State :=
  { s with ctxs := s.ctxs.map (fun c =>
      if c.part == p && !c.key.accepted && (match c.state with
        | .failed _ => true
        | _ => false) then { Ctx.fresh p c.key.stream with incarnation := c.incarnation, openTime := c.openTime } else c) }

/-- Group admission and what follows it: staged groups or a staged restore, staged programs, candidate sets, then the mirror or
the end of the step (R27, R138, R145, R219, R254, R405, R406, R411). -/
def boundaryRest (s : State) (p : Nat) : State :=
  let s := s.admitGroups p
  let s := s.updPart p (fun q => { q with stagedProgs := q.stagedProgs.map (fun g => (g.1, true)) })
  let s := (s.swapReady p).rebuildCands p true
  match (s.part p).mirror, s.mirrorOf p with
  | .staged, some m =>
    match m.staged with
    | some r => (s.applyStaged p r).finishStep p r.step
    | none => s.finishStep p ((s.part p).step + 1)
  | .mirrored, some _ => s.startMirror p
  | .lagging, some m => if m.probed && m.job.isNone then s.startMirror p else s.finishStep p ((s.part p).step + 1)
  | _, _ => s.finishStep p ((s.part p).step + 1)

/-- The step boundary of a partition: units substituted, slices told, staged keys switched to, failed streams returned to
IDLE, then a waiting reload or release; the rest follows at once, or when the reload is done (R27, R29, R112, R322, R347). -/
def boundary (s : State) (p : Nat) : State :=
  let slots := (s.keys.slots.filter (fun k => k.part == p && k.staged.isSome)).map KeySlot.slot
  let s := s.updPart p (fun q => { q with inStep := true })
  let s := ((List.range 16).filter (fun c => (s.conf.partOf p).any (fun r => r.hasCluster c))).foldl substituteCluster s
  let s := slots.foldl switchStaged (s.slicesPass p)
  let s := (s.idleStreams p).applyWaiting p
  if (s.part p).state == .reloading || (s.part p).state == .scrubbing then s else s.boundaryRest p

/-- STEP_BOUNDARY: what waits for a HALTED partition is applied; otherwise the boundary of a waiting STEP_END, once nothing
that it waits for is left (R112, R138). -/
def stepBoundary (s : State) (p : Nat) : State :=
  let q := s.part p
  if q.state == .halted && q.reload.isSome then s.applyWaiting p
  else if q.stepEnd.isSome && !q.inStep && s.stepReady p && (q.state == .active || q.state == .halted) then s.boundary p
  else s

/-- RELOAD_DONE: the new resources are in place once the new windows are; a boundary that waits for it goes on (R27, R43, R50,
R60). -/
def reloadDone (s : State) (p : Nat) : State :=
  if (s.part p).state != .reloading || (s.part p).newWindows.isSome then s
  else
    let s := s.finishReload p
    if (s.part p).state != .active then s
    else if (s.part p).inStep then s.boundaryRest p
    else (s.releaseLater p).checkStep p

/-! ### COUNTER_READ (R435, R436) -/

/-- The partition's group count and key slots. -/
def groupCountOf (s : State) (p : Nat) : Nat := ((s.conf.partOf p).map PartRec.groupCount).getD 0

/-- Key slots of a partition in the order of set 0x08: partition 0 has slots 0 to 63 before its own range (R84, R435, R452). -/
def setSlot (s : State) (p i : Nat) : Nat :=
  let first := ((s.conf.partOf p).map PartRec.keyFirst).getD 0
  if p == 0 then (if i < 64 then i else first + (i - 64)) else first + i

/-- Size of a counter set for a partition; none for a set that does not exist (R435). -/
def setSize (s : State) (p set : Nat) : Option Nat :=
  match set with
  | 1 => some 2560
  | 2 => some 640
  | 3 => some 128
  | 4 => some 96
  | 5 => some 16
  | 6 => some (4 * s.groupCountOf p + 1024)
  | 7 => some 80
  | 8 => some ((if p == 0 then 64 else 0) + ((s.conf.partOf p).map PartRec.keyCount).getD 0)
  | 9 => some 3
  | _ => none

/-- A value of a counter set (R435, R436). -/
def setValue (s : State) (p set i : Nat) : Nat :=
  match set with
  | 1 =>
    let o := i / 32
    let c := i / 4 % 8
    match i % 4 with
    | 0 => s.ctr (.outCls p o c 0)
    | 1 => s.ctr (.outCls p o c 1)
    | 2 => (s.queueOf o c p).octets
    | _ => 0
  | 2 => s.ctr (.outPort p (i / 8) (i % 8))
  | 3 => if i % 8 < 6 then s.ctr (.line p (i / 8) (i % 8)) else 0
  | 4 =>
    let d := i / 16
    let f := i % 16
    if f < 2 then s.ctr (.die p d f)
    else if f < 6 then s.allocated p d (f - 2)
    else if f < 10 then s.quarantined p d (f - 6)
    else 0
  | 5 => if i < 15 then s.partValue p i else 0
  | 6 =>
    let n := 4 * s.groupCountOf p
    if i < n then s.ctr (.groupFlag p (((s.conf.partOf p).map PartRec.groupFirst).getD 0 + i / 4) (i % 4))
    else s.ctr (.progFlag p ((i - n) / 4) (i % 4))
  | 7 => ((s.part p).traps.lookup (i / 5)).elim 0 (fun t => beAt (8 * (i % 5)) 8 (trapBytes t))
  | 8 => s.slotWord (s.setSlot p i)
  | 9 =>
    match i with
    | 0 => s.quartz.secs
    | 1 => s.quartz.ns
    | _ => s.quartz.set.toNat
  | _ => 0

/-- What COUNTER_READ checks of its set and range (R435). -/
def counterCheck (s : State) (p set first count : Nat) : Option Octets :=
  match s.setSize p set with
  | some n => if n < first + count then some [] else none
  | none => some []

end State

/-! ### Meanings -/

/-- STEP_END (R138). -/
def execStepEnd (h : DescHdr) (step : Nat) (s : State) : Host.Outcome State Fault Refusal :=
  .next (s.begin h 0x40 (.stepEnd h step) false (fun _ _ => none)
    (fun s p id => (s.updPart p (fun q => { q with stepEnd := some id })).checkStep p)
    (fun s p => if (s.part p).stepEnd.isSome || step != (s.part p).step then some (beBytes 8 (s.part p).step) else none))

/-- STEP_BOUNDARY (R27, R138). -/
def execStepBoundary (p : PartId) (s : State) : Host.Outcome State Fault Refusal := .next (s.stepBoundary p)

/-- RELOAD_DONE (R43, R60). -/
def execReloadDone (p : PartId) (s : State) : Host.Outcome State Fault Refusal := .next (s.reloadDone p)

/-- COUNTER_READ (R139, R435). -/
def execCounterRead (h : DescHdr) (set first count : Nat) (s : State) : Host.Outcome State Fault Refusal :=
  .next (s.begin h 0x50 (.counterRead h set first count) (decide (count = 0) || decide (1024 < count))
    (fun _ _ => none)
    (fun s p id => s.complete id .ok (valueBytes ((List.range count).map (fun i => s.setValue p set (first + i)))))
    (fun s p => s.counterCheck p set first count))

/-- HINT_NEXT_EVENT (R140). -/
def execHintNextEvent (h : DescHdr) (secs ns : Nat) (s : State) : Host.Outcome State Fault Refusal :=
  .next (s.begin h 0x51 (.hintNextEvent h secs ns) (decide (2 ^ 48 ≤ secs) || decide (nsPerSec ≤ ns)) (fun _ _ => none)
    (fun s p id =>
      (s.updPart p (fun q => { q with hint := if secs * nsPerSec + ns ≤ s.now then none else some (secs, ns) })).complete id .ok []))

/-- HINT_LAPSE (R140): the hint's time has arrived. -/
def execHintLapse (p : PartId) (s : State) : Host.Outcome State Fault Refusal := .next (s.updPart p (fun q => { q with hint := none }))

end Sys2Proof.Machine
end

