-- ==== Sys2Proof/Machine/Time.lean ====
section
/-! DEFINITION. Setting Quartz, the PPS signals and the servo, and the challenges of a TIME_SET (R363 to R370, R375). -/

namespace Sys2Proof.Machine

/-- A record names this device: its identifier at octet 4 (R444). -/
def State.namesUs (s : State) (x : Octets) : Bool := beAt 4 8 x == s.fixed.uid.toNat

/-- The form of a TIME_SET record (R363). -/
def timeSetForm (x : Octets) : Bool :=
  x.length == 144 && beAt 0 2 x == 0x0D0A && beAt 2 2 x == 144 && decide (octetAt 28 x < 2) && zerosAt 29 3 x && zerosAt 32 2 x &&
    decide (beAt 40 4 x < nsPerSec) && zerosAt 44 4 x

/-- A moment moved by a signed number of half ns, in half ns (R368). -/
def shiftTime (secs ns : Nat) (d : Int) : Nat := (2 * ((secs * nsPerSec + ns : Nat) : Int) + d).toNat

/-- Twice the phase error of an edge, in half ns (R368). -/
def phaseHalf (t : Int) : Int :=
  let h := t % (2 * nsPerSec : Nat)
  if h < (nsPerSec : Nat) then h else h - (2 * nsPerSec : Nat)

namespace State

/-- A challenge of 128 bits as the answer to a CHALLENGE record, refused with ENTROPY_FAIL (R72, R363). -/
def challenge (s : State) (keep : Octets → State → State) : State :=
  match s.drbg 16 with
  | some (c, s) => (keep c s).reply 0x0D12 .ok c
  | none => s.reply 0x0D12 .entropyFail []

/-- What the setting of Quartz starts: keys take their activation indices, line ports their keys, waiting restores go on, and
PPS_OUT its edges (R329, R366, R370). -/
def afterSetting (s : State) : State :=
  let s := s.activateWaiting
  let s := (s.conf.lines.filter (fun r => r.enabled && (s.line r.port).inService)).foldl (fun s r => s.lineActivate r.port) s
  let s := ((List.range 64).filter (fun p => (s.part p).mirror == .restoring)).foldl (fun s p => s.handOnce (.restoreDone (fin64 p))) s
  s.armPpsOut

/-- Quartz takes a time in half ns: the only step it ever makes (R360, R364). -/
def setQuartz (s : State) (t : Nat) : State := ({ s with quartz := s.quartz.take t } : State).afterSetting

/-- The target time less the current time, in 2^−28 ns (R364). -/
def offsetTo (s : State) (t : Nat) : Int := ((t : Int) - (s.now : Int)) * 2 ^ 28 - (s.quartz.frac : Int)

/-- The remaining offset becomes the target less the present (R364, R365). -/
def slewTo (s : State) (secs ns : Nat) : State :=
  { s with quartz := { s.quartz with slew := s.offsetTo (secs * nsPerSec + ns) }.retune }

/-- The tests of R364 past the form of the record, in the order of the rule. -/
def timeSetAllowed (s : State) (x : Octets) : Bool :=
  let bit := bitOf (octetAt 28 x) 0
  let target := beAt 32 8 x * nsPerSec + beAt 40 4 x
  s.namesUs x && s.quartz.timeChallenge.any (fun c => c.1 == slice 12 16 x) && s.ownerSigned (x.take 48) (slice 48 96 x) &&
    !(bit && !s.ppsIn) && !(s.quartz.set && s.ppsIn) &&
    !(s.quartz.set && decide (60 * nsPerSec * 2 ^ 28 < (s.offsetTo target).natAbs))

/-- An attempt uses up the challenge (R363). -/
def useTimeChallenge (s : State) : State :=
  { s with quartz := { s.quartz.arm 3 none with timeChallenge := none } }

/-- An edge of PPS_IN at half-nanosecond time `t`, cable delay taken off, is accepted (R368). -/
def edgeAccepted (s : State) (t : Int) (lowNs : Nat) : Bool :=
  decide (100 ≤ lowNs) && s.quartz.lastEdge.all (fun l => decide (l + (nsPerSec : Int) ≤ t))

/-- The instant of an edge that comes `half` half ns after the last count: Quartz time to 0.5 ns less the cable delay, in half ns
(R368). -/
def edgeTime (s : State) (half : Nat) : Int :=
  s.quartz.half + half - 2 * ((s.conf.time.map TimeRec.cableDelay).getD 0)

/-- The servo takes an accepted edge on a SET clock (R368). -/
def servoEdge (s : State) (t : Int) : State :=
  let h := phaseHalf t
  let q := s.quartz
  let q := if h.natAbs < 20000 then { q with integral := q.integral - h.fdiv 128, prop := -(h.fdiv 16) }
    else { q with prop := if h > 0 then -200000 else 200000 }
  { s with quartz := { q with tracking := true, lastE := h.fdiv 2 }.retune }

/-- PPS_IN_EDGE (R364, R368): a rising edge after `lowNs` ns of low. A waiting TIME_SET gives the edge's instant the target time, so
the count takes what it was at its last KCLK cycle. -/
def ppsEdge (s : State) (lowNs half : Nat) : State :=
  let t := s.edgeTime half
  if !(s.ppsIn && s.edgeAccepted t lowNs) then s
  else
    let s := ({ s with quartz := { s.quartz with lastEdge := some t } } : State).bump .ppsEdges
    if s.quartz.set then s.servoEdge t
    else match s.quartz.pendingSet with
      | none => s
      | some (secs, ns) =>
        (s.setQuartz (shiftTime secs ns (2 * ((s.conf.time.map TimeRec.cableDelay).getD 0) - half))).reply 0x0D0A .ok []

/-- The PPS_OUT edge of the present: a rise arms the fall 100 ms on, a fall the next rise; low while it is off (R370). -/
def ppsOutEdge (s : State) (rise : Bool) : State :=
  let up := rise && s.ppsOutOn
  let s : State := { s with quartz := { s.quartz with ppsOut := up } }
  if up then
    let off := (s.conf.time.map TimeRec.ppsOffset).getD 0
    let last := if s.quartz.ns < off then s.quartz.secs - 1 else s.quartz.secs
    { s with quartz := s.quartz.arm 0 (some (secNs (last * nsPerSec + off + 100000000))) }
  else s.armPpsOut

end State

/-! ### Meanings -/

/-- TIME_CHALLENGE (R363): comparator 3 holds its expiry, 600 s on. -/
def execTimeChallenge (s : State) : Host.Outcome State Fault Refusal :=
  .next (s.challenge (fun c s =>
    let t := secNs (s.now + 600 * nsPerSec)
    { s with quartz := { s.quartz.arm 3 (some t) with timeChallenge := some (c, t) } }))

/-- TIME_CHALLENGE_EXPIRY (R375). -/
def execTimeChallengeExpiry (s : State) : Host.Outcome State Fault Refusal := .next s.useTimeChallenge.wakeDevice

/-- TIME_SET (R364): Quartz is set at once, at the next accepted edge, or slewed. The reply to one that waits for its edge is sent at
the edge. -/
def execTimeSet (record : Octets) (s : State) : Host.Outcome State Fault Refusal :=
  if !timeSetForm record then .next (s.reject 0x0D0A .badDescriptor)
  else
    let allowed := s.timeSetAllowed record
    let s := s.useTimeChallenge
    let secs := beAt 32 8 record
    let ns := beAt 40 4 record
    if !allowed then .next (s.reject 0x0D0A .notPermitted)
    else if s.quartz.set then .next ((s.slewTo secs ns).reply 0x0D0A .ok [])
    else if bitOf (octetAt 28 record) 0 then .next { s with quartz := { s.quartz with pendingSet := some (secs, ns) } }
    else .next ((s.setQuartz (2 * (secs * nsPerSec + ns))).reply 0x0D0A .ok [])

/-- TIME_SET_PPS_TIMEOUT (R364): no edge within 2 s. -/
def execTimeSetPpsTimeout (s : State) : Host.Outcome State Fault Refusal :=
  if s.quartz.pendingSet.isSome then
    let s : State := { s with quartz := { s.quartz with pendingSet := none } }
    .next ((s.raise 0x0102 none (State.oct 2)).reply 0x0D0A .timeout [])
  else .next s

/-- SLEW_COMPLETE (R365): the slew term stops. -/
def execSlewComplete (s : State) : Host.Outcome State Fault Refusal := .next { s with quartz := { s.quartz with slew := 0 }.retune }

/-- PPS_IN_EDGE (R364, R368). -/
def execPpsInEdge (edge : PpsEdge) (s : State) : Host.Outcome State Fault Refusal := .next (s.ppsEdge edge.lowNs edge.half)

/-- PPS_HOLDOVER_TIMEOUT (R368): TRACKING without an accepted edge for 1.5 s. -/
def execPpsHoldoverTimeout (s : State) : Host.Outcome State Fault Refusal :=
  if s.quartz.tracking then
    let s : State := { s with quartz := { s.quartz with tracking := false, prop := 0 }.retune }
    .next ((s.bump .ppsHoldover).raise 0x0102 none (State.oct 1 ++ leBytes 4 (unsignedOf 32 s.quartz.lastE)))
  else .next s

/-- PPS_OUT_EDGE (R370, R375). -/
def execPpsOutEdge (rise : Bool) (s : State) : Host.Outcome State Fault Refusal := .next (s.ppsOutEdge rise).wakeDevice

end Sys2Proof.Machine
end

