-- ==== Sys2Proof/Machine/Keys.lean ====
section
/-! DEFINITION. The entropy source, the DRBG and KEY_WRAP (R344 to R346, R352 to R355). -/

namespace Sys2Proof.Machine

/-- The form of a KEY_WRAP record, its point included (R345, R346). -/
def keyWrapForm (x : Octets) : Bool :=
  x.length == 260 && beAt 0 2 x == 0x0D08 && beAt 2 2 x == 260 && zerosAt 12 4 x && zerosAt 113 3 x && zerosAt 156 8 x &&
    (p384Decode (slice 16 97 x)).isSome

/-- The reply to a KEY_WRAP (R346). -/
def keyWrapReply (f : Fixed) (st : Status) (blob : Octets) : Octets :=
  beBytes 2 0x0D09 ++ beBytes 2 56 ++ [BitVec.ofNat 8 (statusCode st)] ++ zeros 3 ++ uidOctets f ++ blob

/-- The import key: the one-step KDF over the shared x-coordinate (R345). -/
def importKey (f : Fixed) (z : Octets) : Octets := (sha384 (beBytes 4 1 ++ z ++ ascii "OMOTH KEY IMPORT" ++ uidOctets f)).take 32

namespace State

/-- The key of a KEY_WRAP wrapped anew: the status and the blob, and the state with slot 0 held (R345, R346, R350). -/
def wrapKey (s : State) (x : Octets) : Status × Octets × State :=
  if !keyWrapForm x then (.badDescriptor, zeros 40, s)
  else if !(s.namesUs x && s.ownerSigned (x.take 164) (slice 164 96 x)) then (.notPermitted, zeros 40, s)
  else match s.derivedKey 1, s.kek with
    | some k1, some (kk, s) =>
      match (ecdhX (scalarOfKey k1) (p384Decode (slice 16 97 x))).bind (fun z => kwUnwrap (importKey s.fixed z) (slice 116 40 x)) with
      | some k => (.ok, kwWrap kk k, s)
      | none => (.notPermitted, zeros 40, s)
    | _, _ => (.keyErased, zeros 40, s)

/-- What waited for the DRBG goes on: line keys, and the key slots of partitions in STARTING (R355). -/
def drbgBack (s : State) : State :=
  let s := (s.conf.lines.filter (fun r => r.enabled && (s.line r.port).inService && (s.line r.port).tx.key.isNone)).foldl
    (fun s r => s.lineActivate r.port) s
  ((List.range 64).filter (fun p => (s.part p).state == .starting)).foldl (fun s p => s.handOnce (.partitionBringupDone (fin64 p))) s

/-- The source is HEALTHY again: the DRBG reseeds, and what waited for it goes on (R43, R112, R354, R355). -/
def entropyRecover (s : State) : State :=
  let s : State := { s with keys := { s.keys with ent := .healthy, retestFails := 0 } }
  let s := if s.keys.derived.isEmpty then s else
    let f := s.freeOctets 96
    f.2.seed f.1
  let s := s.drbgBack
  (((List.range 64).filter (fun p => (s.part p).state == .halted && (s.part p).reload.isSome)).foldl
    (fun s p => s.handOnce (.stepBoundary (fin64 p))) s).armReseed

/-- A retest has failed: again 1 s later, or LATCHED at the third in a row, when STARTING partitions are halted (R354, R355). -/
def retestFailed (s : State) (samples : List Bool) : State :=
  let s := if rctOk none samples then s else s.bump .entRct
  let s := if aptOk samples.length samples then s else s.bump .entApt
  let n := s.keys.retestFails + 1
  let s : State := { s with keys := { s.keys with retestFails := n } }
  if n < 3 then s.armReseed
  else
    let s : State := { s with keys := { s.keys with ent := .latched } }
    let s := s.raise 0x0802 none (oct 1 ++ oct 2)
    ((List.range 64).filter (fun p => (s.part p).state == .starting)).foldl (fun s p => s.setPState p .halted 9) s

/-- DRBG_RESEED: 768 raw samples that pass the tests reseed the DRBG, or instantiate one that stage 4 left out; a failing sample fails
the source (R352 to R354, log entry 25). -/
def reseed (s : State) (samples : List Bool) : State :=
  if s.keys.ent != .healthy then s
  else
    let s := s.armReseed
    if !(rctOk none samples) then s.entropyFail false
    else if !(aptOk samples.length samples) then s.entropyFail true
    else if s.keys.drbg.isSome then s.seed (packSamples samples)
    else if s.keys.derived.isEmpty then s
    else (s.seed (packSamples samples)).drbgBack

end State

/-! ### Meanings -/

/-- ENTROPY_TEST_FAIL (R354): the retest is due 1 s on. -/
def execEntropyTestFail (aptFailed : Bool) (s : State) : Host.Outcome State Fault Refusal := .next (s.entropyFail aptFailed).armReseed

/-- ENTROPY_RETEST (R354): a retest of 4,096 samples. -/
def execEntropyRetest (samples : List Bool) (s : State) : Host.Outcome State Fault Refusal :=
  if s.keys.ent == .failed && samples.length == 4096 then .next (if healthOk samples then s.entropyRecover else s.retestFailed samples).wakeDevice else .next s

/-- DRBG_RESEED (R353). -/
def execDrbgReseed (samples : List Bool) (s : State) : Host.Outcome State Fault Refusal := .next (s.reseed samples).wakeDevice

/-- KEY_WRAP (R345, R346). -/
def execKeyWrap (record : Octets) (s : State) : Host.Outcome State Fault Refusal :=
  let r := s.wrapKey record
  .next (r.2.2.answer r.1 (keyWrapReply s.fixed r.1 r.2.1))

end Sys2Proof.Machine
end

