-- ==== Sys2Proof/Machine/Flash.lean ====
section
/-! DEFINITION. The Slate flash devices: commit records, image updates, the background copy and the persistent critical log
(R76, R77, R96 to R108). -/

namespace Sys2Proof.Machine

/-- Octets of a slot (R77). -/
def slotSize : Nat := 0x03C00000

/-- Base of a commit sector, 0 or 1 (R77). -/
def commitBase (k : Nat) : Nat := 0x07800000 + 0x10000 * k

/-- Base of the persistent critical log (R77). -/
def logBase : Nat := 0x07C00000

/-- The positions of `w` octets in a region that are not all 0xFF, in rising order. -/
def usedPositions (base size w : Nat) (m : List Host.Cell) : List Nat :=
  ((m.filter (fun c => decide (base ≤ c.1) && decide (c.1 < base + size))).map (fun c => (c.1 - base) / w)).eraseDups

/-- The valid commit records of a sector (R97). -/
def sectorCommits (m : List Host.Cell) (k : Nat) : List Commit :=
  (usedPositions (commitBase k) 0x10000 128 m).filterMap (fun i => parseCommit (memRead 0xFF m (commitBase k + 128 * i) 80))

/-- The commit record that counts for a slot: the valid one of highest sequence in either sector (R97). -/
def countingCommit (m : List Host.Cell) (slot : Nat) : Option Commit :=
  ((sectorCommits m 0 ++ sectorCommits m 1).filter (fun c => c.slot == slot)).foldl (fun b c => match b with
    | some x => if x.seq < c.seq then some c else b
    | none => some c) none

/-- The highest committed slot of a device. -/
def highestCommit (m : List Host.Cell) : Option Commit :=
  match countingCommit m 0, countingCommit m 1 with
  | some a, some b => if a.seq < b.seq then some b else some a
  | some a, none => some a
  | none, b => b

/-- The target slot of a device: the one that is not its highest committed slot, or slot A (R102). -/
def targetSlot (m : List Host.Cell) : Nat := match highestCommit m with
  | some c => 1 - c.slot
  | none => 0

/-- No position of a commit sector is free (R98). -/
def sectorFull (m : List Host.Cell) (k : Nat) : Bool :=
  let used := usedPositions (commitBase k) 0x10000 128 m
  (List.range 512).all used.contains

/-- Where the next record of a commit sector goes, after the sector has been erased and its counting records rewritten when it is
full (R98). -/
def commitPlace (m : List Host.Cell) (k : Nat) : List Host.Cell × Nat :=
  let used := usedPositions (commitBase k) 0x10000 128 m
  match (List.range 512).find? (fun i => !(used.contains i)) with
  | some i => (m, commitBase k + 128 * i)
  | none =>
    let keep := [0, 1].filterMap (countingCommit m)
    let e := memClear m (commitBase k) 0x10000
    (memWrite 0xFF e (commitBase k) (keep.flatMap (fun c => fitTo 128 0xFF (commitBytes c))), commitBase k + 128 * keep.length)

/-- The slot with what another one holds. -/
def copySlot (src : List Host.Cell) (a : Nat) (dst : List Host.Cell) (b : Nat) : List Host.Cell :=
  dst.filter (fun c => decide (c.1 < b * slotSize)) ++
    (memCells src (a * slotSize) slotSize).map (fun c => (c.1 - a * slotSize + b * slotSize, c.2)) ++
    dst.filter (fun c => decide ((b + 1) * slotSize ≤ c.1))

/-- The 1,024 octets of a critical log entry (R106). -/
def logEntryBytes (seq : Nat) (w : LogWait) : Octets :=
  let b := beBytes 4 0x434C4F47 ++ beBytes 4 seq ++ beBytes 8 w.secs ++ beBytes 4 w.ns ++ beBytes 2 w.code ++
    beBytes 2 w.payload.length ++ fitTo 996 0xFF w.payload
  b ++ beBytes 4 (crcOf crc32c b)

/-- A log entry is valid (R107). -/
def logValid (x : Octets) : Bool := beAt 0 4 x == 0x434C4F47 && beAt 1020 4 x == crcOf crc32c (x.take 1020)

/-- Positions of the log that are written, with their octets. -/
def logEntries (m : List Host.Cell) : List (Nat × Octets) :=
  (usedPositions logBase 0x400000 1024 m).map (fun i => (i, memRead 0xFF m (logBase + 1024 * i) 1024))

/-- The head of a log: its sequence and position (R107). -/
def logHead (m : List Host.Cell) : Option (Nat × Nat) :=
  ((logEntries m).filter (fun e => logValid e.2)).foldl (fun h e =>
    let q := beAt 4 4 e.2
    match h with
    | some x => if later 32 q x.1 then some (q, e.1) else h
    | none => some (q, e.1)) none

/-- A device takes no log entry: it programs, or it erases and cannot suspend that erase, or the entry begins a sector, which is an
erase of its own (R108; DEDUCED, log entry 28). -/
def FlashDev.logBusy (f : FlashDev) : Bool :=
  f.rest.isSome || (f.erasing && (!f.suspends || f.logPos % 64 == 0))

namespace State

/-- The flash devices in use (R76). -/
def workingDevs (s : State) : List Nat := [0, 1].filter (fun d => (s.flashDev d).works)

/-- What an event carries after the payload of R440 where a group past its headroom made the check fail: the status OVERFLOW (R90).
R440 and R478 give that status no octet; it is the one after the payload (DESIGN CHOICE, log entry 29). -/
def overflowOctet (overflow : Bool) : Octets := if overflow then oct (statusCode .overflow) else []

/-- SLATE event: device, slot, step and octet offset (R440, R478). -/
def slateEvent (s : State) (cause dev slot step off : Nat) (overflow : Bool := false) : State :=
  s.raise 0x0301 none (oct cause ++ oct dev ++ oct slot ++ oct step ++ leBytes 4 off ++ overflowOctet overflow)

/-- The highest sequence on either device (R102 step 4). -/
def highestSeq (s : State) : Nat :=
  s.workingDevs.foldl (fun n d => match highestCommit (s.flashDev d).cells with
    | some c => max n c.seq
    | none => n) 0

/-- What a device still had to write is written: it ends one operation before it begins the next. -/
def flushDev (s : State) (d : Nat) : State :=
  s.updFlashDev d (fun f => match f.rest with
    | some (a, x) => { f with cells := memWrite 0xFF f.cells a x, rest := none }
    | none => f)

/-- Octets that a device programs now, and those that the end of the program writes. -/
def beginProgram (s : State) (d a : Nat) (now' : Octets) (b : Nat) (rest : Octets) : State :=
  (s.flushDev d).updFlashDev d (fun f => { f with cells := memWrite 0xFF f.cells a now', rest := some (b, rest) })

/-- A device erases a slot: it reads as erased from now on. -/
def beginErase (s : State) (d slot : Nat) : State :=
  (s.flushDev d).updFlashDev d (fun f => { f with cells := memClear f.cells (slot * slotSize) slotSize, erasing := true })

/-- The slot erases in progress have ended. -/
def endErases (s : State) : State := [0, 1].foldl (fun s d => s.updFlashDev d (fun f => { f with erasing := false })) s

/-- A commit record begins to be written into a sector: its check value comes last (R96, R98, R104). -/
def beginCommit (s : State) (d k : Nat) (c : Commit) : State :=
  let s := s.flushDev d
  let p := commitPlace (s.flashDev d).cells k
  let b := commitBytes c
  let s := s.updFlashDev d (fun f => { f with cells := p.1 })
  s.beginProgram d p.2 (b.take 76) (p.2 + 76) (b.drop 76)

/-- A commit record written whole into a sector. -/
def putCommit (s : State) (d k : Nat) (c : Commit) : State :=
  s.updFlashDev d (fun f =>
    let p := commitPlace f.cells k
    { f with cells := memWrite 0xFF p.1 p.2 (commitBytes c) })

/-- A commit whose part in C0 has erased that sector leaves a full C1 alone: the copy is written at the next start that boots the slot
(R98, R104; DEDUCED, log entry 28). -/
def skipsC1 (s : State) (d : Nat) (c0Erased : Bool) : Bool := c0Erased && sectorFull (s.flashDev d).cells 1

/-- A commit record written whole into both sectors (R98). -/
def writeCommit (s : State) (d : Nat) (c : Commit) : State :=
  let full := sectorFull (s.flashDev d).cells 0
  let s := s.putCommit d 0 c
  if s.skipsC1 d full then s else s.putCommit d 1 c

/-- The copy of a commit record that a sector lacks is written (R104). -/
def repairCommit (s : State) (d : Nat) (c : Commit) : State :=
  [0, 1].foldl (fun s k => if (sectorCommits (s.flashDev d).cells k).contains c then s else s.putCommit d k c) s

/-! ### Updates (R102 to R105) -/

/-- The record that an update is still to answer. -/
def owedType : UpdateStage → Option Nat
  | .erasing => some 0x0D05
  | .programming => some 0x0D06
  | .commit0 | .commit1 => some 0x0D07
  | _ => none

/-- The reply to an update record, once the flash is ready for the next one; the mailbox has gone on meanwhile (R460). -/
def lateReply (s : State) (u : Update) (st : Status) : State :=
  match owedType u.stage with
  | some t =>
    let x := replyBytes t st []
    let s : State := if s.mail.current.isNone then { s with mail := { s.mail with status := statusCode st, reply := x } } else s
    match u.via with
    | some (id, port) => s.sendReply id port x
    | none => s
  | none => s

/-- The record in the mailbox is left to a later reply: where that goes, and the mailbox free for the next. -/
def detach (s : State) : Option (Nat × Nat) × State :=
  (s.mail.current.bind MailIn.via, s.freeMail)

/-- An update changed. -/
def setUpdate (s : State) (u : Option Update) : State := { s with flash := { s.flash with update := u } }

/-- An update whose first device has committed does not reach the second one (R103). -/
def secondLost (s : State) (u : Update) : State :=
  match u.second with
  | some (d, slot) => s.slateEvent 6 d slot 0 0
  | none => s

/-- An update is abandoned, its target left uncommitted: a commit record that lacks its check value never gets it (R103); `step` is the
step of R99 that failed, or 0. Once its record in C0 is whole the first device has committed, and only the second one's part is
abandoned (R97, R103, R104). A background copy is cancelled without an event (R105). -/
def abandonUpdate (s : State) (step : Nat) (overflow : Bool := false) : State :=
  match s.flash.update with
  | none => s
  | some u =>
    let s := s.setUpdate none
    if u.background then s
    else match u.stage with
      | .commit1 => ((s.flushDev u.dev).lateReply u .ok).secondLost u
      | .copying => s.secondLost u
      | .commit0 => ((s.updFlashDev u.dev (fun f => { f with rest := none })).lateReply u .notPermitted).slateEvent 5 u.dev u.slot step 0
      | _ => (s.lateReply u .notPermitted).slateEvent 5 u.dev u.slot step 0 overflow

/-- An update is abandoned because its session has ended (R103). -/
def sessionUpdate (s : State) (id : Nat) : State :=
  match s.flash.update with
  | some u => if !u.background && u.via.any (fun v => v.1 == id) then s.abandonUpdate 0 else s
  | none => s

/-- The second device's part of an update begins: erase, then copy (R102, R105). -/
def beginCopy (s : State) (u : Update) (d slot : Nat) : State :=
  (s.setUpdate (some { u with stage := .copying, second := some (d, slot) })).beginErase d slot

/-- IMAGE_BEGIN whose header passes: the target of the first working device is erased (R102). -/
def beginUpdate (s : State) (h : SlateHeader) : State :=
  match s.workingDevs with
  | [] => s.reply 0x0D05 .notPermitted []
  | d :: more =>
    let slot := targetSlot (s.flashDev d).cells
    let s := if more.isEmpty then s.slateEvent 4 d slot 0 0 else s
    let v := s.detach
    let u : Update := {
      stage := .erasing, background := false, via := v.1, length := h.length, next := 0, dev := d, slot := slot,
      second := more.head?.map (fun e => (e, targetSlot (s.flashDev e).cells)), seq := 0, digest := [], c0Erased := false }
    (v.2.setUpdate (some u)).beginErase d slot

/-- The container that the first device holds after an update's data. -/
def updateImage (s : State) (u : Update) : Octets := memRead 0xFF (s.flashDev u.dev).cells (u.slot * slotSize) u.length

/-- Steps 6 to 10 of R99 on the slot read back (R102 step 3): what fails. -/
def readBackFails (s : State) (img : Octets) (u : Update) : Option CheckFail :=
  let h := slateHeader (img.take 320)
  if h.length != u.length then some ⟨6, 8, false⟩
  else match checkBody s.fixed.vendorKeyHash h img with
    | .ok _ => none
    | .error e => some e

/-- The commit record of an update. -/
def updateCommit (u : Update) : Commit := ⟨u.slot, u.seq, u.length, u.digest⟩

/-- IMAGE_END while data are awaited: the slot is read back and checked, then committed in C0 (R102 steps 3 and 4). -/
def endUpdate (s : State) (u : Update) : State :=
  let img := s.updateImage u
  match s.readBackFails img u with
  | some e => (s.abandonUpdate e.step e.overflow).reply 0x0D07 .notPermitted []
  | none =>
    let v := s.detach
    let u := { u with
      stage := .commit0, via := v.1, seq := s.highestSeq + 1, digest := sha384 img, c0Erased := sectorFull (s.flashDev u.dev).cells 0 }
    (v.2.setUpdate (some u)).beginCommit u.dev 0 (updateCommit u)

/-- IMAGE_DATA (R102, R103). -/
def updateData (s : State) (off : Nat) (data : Octets) : State :=
  match s.flash.update with
  | some u =>
    if u.background || u.stage != .receiving then s.reject 0x0D06 .notPermitted
    else if off != u.next || u.length < off + data.length then s.reject 0x0D06 .badDescriptor
    else
      let v := s.detach
      (v.2.setUpdate (some { u with stage := .programming, via := v.1, next := off + data.length })).beginProgram u.dev
        (u.slot * slotSize + off) data 0 []
  | none => s.reject 0x0D06 .notPermitted

/-- The first device of an update has committed: IMAGE_END is answered, and the second device's part begins (R102). -/
def firstCommitted (s : State) (u : Update) : State :=
  let s := s.lateReply u .ok
  match u.second with
  | some (e, slot) => s.beginCopy u e slot
  | none => s.setUpdate none

/-- What follows the end of a program for the update that waits for it (R102, R104). -/
def programmed (s : State) (d : Nat) : State :=
  match s.flash.update with
  | none => s
  | some u =>
    if u.dev != d then s
    else match u.stage with
      | .programming => (s.setUpdate (some { u with stage := .receiving })).lateReply u .ok
      | .commit0 =>
        if s.skipsC1 d u.c0Erased then s.firstCommitted u
        else (s.setUpdate (some { u with stage := .commit1 })).beginCommit d 1 (updateCommit u)
      | .commit1 => s.firstCommitted u
      | _ => s

/-! ### The critical log (R106 to R108) -/

/-- The first waiting entry that a device still has to write, when the device can take it: its sector erased first where it begins one,
the check value written last (R107, R108). -/
def logOn (s : State) (d : Nat) : State :=
  let f := s.flashDev d
  if !f.works || f.logBusy then s
  else match s.flash.waiting.find? (fun w => w.devs.contains d) with
    | none => s
    | some w =>
      let a := logBase + 1024 * f.logPos
      let x := logEntryBytes f.logSeq w
      let s := s.updFlashDev d (fun f =>
        { f with cells := if f.logPos % 64 == 0 then memClear f.cells a 0x10000 else f.cells, logSeq := (f.logSeq + 1) % 2 ^ 32,
                 logPos := (f.logPos + 1) % 4096 })
      let i := s.flash.waiting.findIdx (fun w => w.devs.contains d)
      let s : State := { s with flash := { s.flash with waiting := s.flash.waiting.modify i (fun w => { w with devs := w.devs.filter (· != d) }) } }
      s.beginProgram d a (x.take 1020) (a + 1020) (x.drop 1020)

/-- CRITICAL_LOG_WRITE: idle devices write their next waiting entry; an entry that no device still has to write is dropped
(R108). -/
def writeLog (s : State) : State :=
  let s := (s.logOn 0).logOn 1
  { s with flash := { s.flash with waiting := s.flash.waiting.filter (fun w => w.devs.any (fun d => (s.flashDev d).works)) } }

/-- The log has something to write on an idle device. -/
def logReady (s : State) : Bool :=
  s.flash.waiting.any (fun w => !(w.devs.any (fun d => (s.flashDev d).works)) ||
    w.devs.any (fun d => (s.flashDev d).works && !(s.flashDev d).logBusy))

/-- Start's part in the log of a device: head found, torn entries told (R107, R108). The first entry of an empty log takes sequence 0
and position 0, which the spec leaves open (DESIGN CHOICE, log entry 28). -/
def scanLog (s : State) (d : Nat) : State :=
  let m := (s.flashDev d).cells
  let s := s.updFlashDev d (fun f => match logHead m with
    | some (q, i) => { f with logSeq := (q + 1) % 2 ^ 32, logPos := (i + 1) % 4096 }
    | none => { f with logSeq := 0, logPos := 0 })
  ((logEntries m).filter (fun e => !(logValid e.2))).foldl (fun s e => s.raise 0x0303 none (oct 0 ++ oct d ++ leBytes 2 e.1)) s

/-! ### The background copy (R105) -/

/-- BACKGROUND_COPY: the other device lags behind the booted image. -/
def backgroundCopy (s : State) : State :=
  match s.boot.image with
  | none => s
  | some b =>
    let e := 1 - b.dev
    let lags := match highestCommit (s.flashDev e).cells with
      | some c => decide (c.seq < b.seq) || c.digest != b.digest
      | none => true
    if s.boot.phase == .ready && (s.flashDev e).works && s.flash.update.isNone && lags then
      let u : Update := {
        stage := .copying, background := true, via := none, length := b.length, next := b.length, dev := b.dev, slot := b.slot,
        second := none, seq := b.seq, digest := b.digest, c0Erased := false }
      s.beginCopy u e (targetSlot (s.flashDev e).cells)
    else s

/-- The copy to the second device ends: committed at the same sequence, or a failure told (R102, R103, R105). -/
def copyDone (s : State) (ok : Bool) : State :=
  match s.flash.update with
  | some u =>
    match u.stage, u.second with
    | .copying, some (e, slot) =>
      let s := (s.setUpdate none).updFlashDev e (fun f => { f with rest := none, erasing := false })
      if ok then
        (s.updFlashDev e (fun f => { f with cells := copySlot (s.flashDev u.dev).cells u.slot f.cells slot })).writeCommit e
          { updateCommit u with slot := slot }
      else s.slateEvent 6 e slot 0 0
    | _, _ => s
  | none => s

end State

/-! ### Meanings -/

/-- IMAGE_BEGIN (R102, R103): steps 2 to 5 of R99 on the header, then the erase; an open update is abandoned. -/
def execImageBegin (header : Octets) (s : State) : Host.Outcome State Fault Refusal :=
  let s := s.abandonUpdate 0
  match checkHeader s.activeOwner s.fixed.uid.toNat header with
  | .error e => .next (s.reply 0x0D05 (if e.step == 2 then .badDescriptor else .notPermitted) [])
  | .ok h => .next (s.beginUpdate h)

/-- SLOT_ERASE_DONE (R102): the update is ready for data, or the copy to a second device begins to program it; log entries that
waited for the erase go on (R108). -/
def execSlotEraseDone (s : State) : Host.Outcome State Fault Refusal :=
  let s := s.endErases
  let s : State := match s.flash.update with
    | some (u : Update) =>
      if u.stage == UpdateStage.erasing then (s.setUpdate (some { u with stage := .receiving })).lateReply u .ok
      else match u.stage, u.second with
        | .copying, some (e, _) => s.updFlashDev e (fun f => { f with rest := some (0, []) })
        | _, _ => s
    | none => s
  .next (if s.logReady then s.handOnce .criticalLogWrite else s)

/-- IMAGE_DATA (R102, R103). -/
def execImageData (offset : Nat) (data : Octets) (s : State) : Host.Outcome State Fault Refusal := .next (s.updateData offset data)

/-- IMAGE_END (R102). -/
def execImageEnd (s : State) : Host.Outcome State Fault Refusal :=
  match s.flash.update with
  | some u => .next (if u.stage == .receiving && !u.background then s.endUpdate u else s.reply 0x0D07 .notPermitted [])
  | none => .next (s.reply 0x0D07 .notPermitted [])

/-- IMAGE_UPDATE_TIMEOUT (R103): 60 s without an update record. -/
def execImageUpdateTimeout (s : State) : Host.Outcome State Fault Refusal :=
  .next (if s.flash.update.any (fun u => u.stage == .receiving) then s.abandonUpdate 0 else s)

/-- SECOND_DEVICE_COPY_DONE (R102, R103, R105). -/
def execSecondDeviceCopyDone (ok : Bool) (s : State) : Host.Outcome State Fault Refusal := .next (s.copyDone ok)

/-- BACKGROUND_COPY (R105). -/
def execBackgroundCopy (s : State) : Host.Outcome State Fault Refusal := .next s.backgroundCopy

/-- CRITICAL_LOG_WRITE (R106 to R108). -/
def execCriticalLogWrite (s : State) : Host.Outcome State Fault Refusal := .next s.writeLog

/-- FLASH_PROGRAM_DONE (R102, R108): the octets held to the end are written, and what waits for the device goes on. -/
def execFlashProgramDone (device : Fin 2) (s : State) : Host.Outcome State Fault Refusal :=
  match (s.flashDev device).rest with
  | none => .next s
  | some (a, x) =>
    let s := s.updFlashDev device (fun f => { f with cells := memWrite 0xFF f.cells a x, rest := none })
    let s := if x.length == 4 && decide (logBase ≤ a) then s else s.programmed device
    .next (if s.logReady then s.handOnce .criticalLogWrite else s)

end Sys2Proof.Machine
end

