-- ==== Sys2Proof/Machine/SegmentsRx.lean ====
section
/-! DEFINITION. Receiving segments and records, reassembly, retransmission, and operations that arrive from the line (R48, R130,
R307, R308, R312, R314 to R323, R338, R341). -/

namespace Sys2Proof.Machine

/-! ### Reading a body (R307) -/

/-- The pieces of a DATA body; none where one breaks R307. `fuel` pieces at most. -/
def parsePieces : Nat → Octets → Option (List Piece)
  | 0, x => if x.isEmpty then some [] else none
  | n + 1, x => do
    if x.isEmpty then pure []
    else
      let p := beAt 2 2 x
      let len := beAt 4 4 x
      let fl := octetAt 1 x
      okIf (8 ≤ x.length && fl < 4 && 1 ≤ p && p ≤ 9654 && 8 + p ≤ x.length && 1 ≤ len && len ≤ 1048576)
      let r ← parsePieces n (x.drop (8 + p))
      pure ({ kind := octetAt 0 x, first := bitOf fl 0, last := bitOf fl 1, itemLength := len, octets := slice 8 p x, buf := none } :: r)

/-- A Carillon message read from an item; none where a reserved field or code is used (R157, R159). -/
def parseCarillon (stream site : Nat) (x : Octets) : Option (Nat × CarMsg) := do
  let kind := octetAt 0 x
  let st ← statusOfCode (octetAt 1 x)
  okIf (32 ≤ x.length && 1 ≤ kind && kind ≤ 5 && (kind == 5 || st == .ok) && beAt 2 2 x < 4096 && zerosAt 17 3 x &&
    x.length == 32 + beAt 24 4 x)
  pure (kind, { stream := stream, site := site, group := beAt 2 2 x, fingerprint := beAt 4 4 x, peal := beAt 8 4 x, chunk := beAt 12 4 x,
                sender := octetAt 16 x, contributors := beAt 20 4 x, length := beAt 24 4 x, offset := beAt 28 4 x, status := st,
                payload := x.drop 32 })

/-- The command of a Carillon message (R157). -/
def carillonCommand (p : PartId) (kind : Nat) (m : CarMsg) : Instr :=
  match kind with
  | 1 => .exponentUp p m
  | 2 => .exponentDown p m
  | 3 => .partialUp p m
  | 4 => .resultDown p m
  | _ => .abort p m

/-- What the delivery of a segment's pieces came to (R321). -/
inductive Delivery where
  | whole
  /-- The piece of this number waits for its item's buffer. -/
  | waits (piece : Nat)
  | breach
  deriving DecidableEq, Repr

/-- What R319 made of a segment (R312). -/
inductive Arrival where
  | fresh | advance | duplicate | stored | noBuffer | beyond
  deriving DecidableEq, Repr

/-- RTO and estimates after a sample m (R316). -/
def rttSample (c : Ctx) (m : Nat) : Ctx :=
  let v := match c.srtt with
    | none => (m, m / 2)
    | some r =>
      let d := if r ≤ m then m - r else r - m
      ((7 * r + m) / 8, (3 * c.rttvar + d) / 4)
  { c with srtt := some v.1, rttvar := v.2, rto := max (v.1 + 4 * v.2) (m + 2000000) }

/-- A remote operation of a context, as it arrived (R321). -/
def freshRemote (id : Nat) (c : Ctx) (x : Octets) (b : Option (Nat × Nat × Nat)) : RemoteOp :=
  { id := id, part := c.part, ctx := c.key, incarnation := c.incarnation, opcode := octetAt 2 x, tag := beAt 4 4 x,
    stream := beAt 8 4 x % 1048576, wantCompletion := bitOf (octetAt 3 x) 0, held := none, buf := b }

/-- The bitmap bit of a record for a sequence later than its cumulative (R306). -/
def recordBit (r : AckRec) (seq : Nat) : Bool :=
  let d := serialDiff 32 seq r.cumulative
  decide (1 ≤ d) && decide (d ≤ 256) && bitOf (octetAt ((d - 1) / 8) r.bitmap) ((d - 1) % 8)

/-- Bits that a record sets for sequences later than `seq` (R317). -/
def laterBits (r : AckRec) (seq : Nat) : Nat :=
  (List.range 256).countP (fun i => bitOf (octetAt (i / 8) r.bitmap) (i % 8) &&
    later 32 ((r.cumulative + 1 + i) % 2 ^ 32) seq)

namespace State

/-- The remote site of a line port (R85, R300). -/
def siteOfLine (s : State) (m : Nat) : Nat := ((s.conf.lineOf m).map LineRec.site).getD 0

/-! ### The key that opened a body (R303, R308, R338, R341) -/

/-- What a body's opening does to its slot: the next key becomes the sealing key, and a salt that clashes moves it on. The answer is
the partition that holds the stream; none, with the drop counted, where the named slot cannot have opened it. -/
def bodyOpened (s : State) (m : Nat) (h : SegHdr) : Option Nat × State :=
  match s.streamPart h.stream with
  | none => (none, s.bump (.page m 9))
  | some p =>
    match s.keySlot h.keySlot with
    | none => (none, s.bump (.line p m 3))
    | some k =>
      let next := (nextKey k).isSome && h.epoch == nextEpoch k
      if k.part != p || k.usage != 1 || (currentKey k).isNone || !(next || h.epoch == epochOf k) then (none, s.bump (.line p m 3))
      else
        let s := if next && h.epoch != epochOf k then s.openedUnderNext h.keySlot else s
        let own := ((s.keySlot h.keySlot).bind currentKey).map (fun c => beNat c.2.1)
        if own == some h.salt then
          let s := ((s.limitReached h.keySlot).bumpPart p 10).raise 0x0801 (some p) (oct 3 ++ leBytes 2 h.keySlot)
          let s := if ((s.keySlot h.keySlot).map KeySlot.state) == some .exhausted then s.failSlot h.keySlot .keyExhausted else s
          (some p, s)
        else (some p, s)

/-- The context that a body is for, when it is OPEN, leads to the arrival site and is of the incarnation (R308 step 4). -/
def bodyCtx (s : State) (m : Nat) (h : SegHdr) : Option Ctx :=
  let k := if h.reverse then origKey h.stream else accKey h.stream (s.siteOfLine m)
  (s.ctx k).filter (fun c => c.state == .open && c.site == s.siteOfLine m && c.incarnation == h.incarnation)

/-! ### Delivery (R321) -/

/-- A complete item is handed on (R321). Its Basalt buffer `b` goes with a remote operation, until that is delivered (R247, R264), and
is let go of otherwise. -/
def handItem (s : State) (c : Ctx) (kind : Nat) (x : Octets) (b : Option (Nat × Nat × Nat)) : State :=
  let p : PartId := fin64 c.part
  let s := match b with
    | some b => if kind == 2 then s else s.decRef b
    | none => s
  match kind with
  | 1 =>
    match parseCarillon c.key.stream c.site x with
    | some (k, m) => s.hand (carillonCommand p k m)
    | none => s.bumpPart c.part 12
  | 2 =>
    let id := s.nextRemote
    let s := s.updCtx c.key (fun y => { y with unanswered := y.unanswered + 1 })
    ({ s with remoteOps := s.remoteOps ++ [freshRemote id c x b], nextRemote := id + 1 } : State).resume id (.remoteOperationRx p c.site x)
  | _ =>
    if octetAt 0 x != 1 || octetAt 1 x != 2 || completionBad x then s.bumpPart c.part 6
    else s.hand (.streamCompletionRx p (compHdr x) (yuvBody x))

/-- A kind that travels in a direction (R307). -/
def kindOk (accepted : Bool) (kind : Nat) : Bool := if accepted then kind == 1 || kind == 2 else kind == 3

/-- A buffer of a partition on a line die for a received item, as a line ingress item takes it (R255, R321). -/
def rxBuffer (s : State) (p m len : Nat) : Option ((Nat × Nat × Nat) × State) :=
  (s.fitPool p (4 + lineDie m) len).map (fun k =>
    let a := s.allocBuf p (4 + lineDie m) k 1
    ((4 + lineDie m, k, a.1), a.2))

/-- Octets stand in a buffer (R258). -/
def fillBuf (s : State) (b : Option (Nat × Nat × Nat)) (x : Octets) : State :=
  match b with
  | some b => s.updBuf b (fun y => { y with fill := x.length, data := x })
  | none => s

/-- Pieces delivered in order, the next being number `n` of its segment (R321). -/
def deliverPieces (m : Nat) (k : CtxKey) : List Piece → Nat → State → Delivery × State
  | [], _, s => (.whole, s)
  | q :: r, n, s =>
    match s.ctx k with
    | none => (.breach, s)
    | some c =>
      let ready : Delivery × State × Option RxItem := match c.item with
        | some i => if q.first || q.kind != i.kind || q.itemLength != i.length then (.breach, s, none) else (.whole, s, some i)
        | none =>
          if !q.first || !(kindOk k.accepted q.kind) then (.breach, s, none)
          else match s.rxBuffer c.part m q.itemLength with
            | some b => (.whole, b.2, some ⟨q.kind, q.itemLength, [], some b.1⟩)
            | none => (.waits n, s, none)
      match ready with
      | (.whole, s, some i) =>
        let x := i.octets ++ q.octets
        if i.length < x.length || q.last != (x.length == i.length) then
          (.breach, s.updCtx k (fun y => { y with item := some i }))
        else if q.last then
          deliverPieces m k r (n + 1) (((s.updCtx k (fun y => { y with item := none })).fillBuf i.buf x).handItem c i.kind x i.buf)
        else deliverPieces m k r (n + 1) ((s.updCtx k (fun y => { y with item := some { i with octets := x } })).fillBuf i.buf x)
      | (d, s, _) => (d, s)

/-- A segment's plaintext delivered, past the pieces that went before (R321). -/
def deliverSegment (s : State) (m : Nat) (k : CtxKey) (plain : Octets) : Delivery × State :=
  match parsePieces plain.length plain with
  | none => (.breach, s)
  | some ps =>
    let n := ((s.ctx k).bind Ctx.waitBuffer).getD 0
    deliverPieces m k (ps.drop n) n (s.updCtx k (fun c => { c with waitBuffer := none }))

/-- A 16 KiB Basalt buffer of the partition's share on the receiving die, with a segment's octets (R258, R319). -/
def holdBuffer (s : State) (p m : Nat) (x : Octets) : Option ((Nat × Nat × Nat) × State) :=
  if 0 < s.freeShare p (4 + lineDie m) 0 && 0 < (s.pool (4 + lineDie m) 0).free then
    let a := s.allocBuf p (4 + lineDie m) 0 1
    some ((4 + lineDie m, 0, a.1), a.2.fillBuf (some (4 + lineDie m, 0, a.1)) x)
  else none

/-- A stored segment leaves, with its buffer. -/
def dropStored (s : State) (k : CtxKey) (x : StoredSeg) : State :=
  let s := s.updCtx k (fun c => { c with stored := c.stored.filter (fun y => y.seq != x.seq) })
  match x.buf with
  | some b => s.decRef b
  | none => s

/-- The cumulative runs over the stored segments that follow in order; the answer tells whether any did. The stream fails on a
breach. `fuel` segments at most (R319, R321, R322). -/
def runStored (m : Nat) (k : CtxKey) : Nat → Bool → State → Bool × State
  | 0, b, s => (b, s)
  | n + 1, b, s =>
    match s.ctx k with
    | none => (b, s)
    | some c =>
      if c.state != .open then (b, s)
      else match c.stored.find? (fun x => x.seq == c.cumulative) with
        | none => (b, s)
        | some x =>
          match s.deliverSegment m k x.plain with
          | (.whole, s) =>
            runStored m k n true
              ((s.dropStored k x).updCtx k (fun y => { y with cumulative := (y.cumulative + 1) % 2 ^ 32 }))
          | (.waits i, s) =>
            (b, s.updCtx k (fun y => { y with
              waitBuffer := some i, stored := mapWhen (fun z => z.seq == x.seq) (fun z => { z with marked := false }) y.stored }))
          | (.breach, s) => (b, s.failStream k .streamFailed true)

/-- The segment that stands at the cumulative arrives (R319, R321). An OPEN has no pieces. -/
def arriveNext (s : State) (m : Nat) (c : Ctx) (seq : Nat) (plain : Octets) : Arrival × State :=
  match s.deliverSegment m c.key plain with
  | (.whole, s) =>
    let s := s.updCtx c.key (fun y => { y with cumulative := (y.cumulative + 1) % 2 ^ 32 })
    let r := runStored m c.key (c.stored.length + 1) false s
    (if r.1 then .advance else .fresh, r.2)
  | (.waits i, s) =>
    let s := s.updCtx c.key (fun y => { y with waitBuffer := some i })
    match s.holdBuffer c.part m plain with
    | some b => (.stored, b.2.updCtx c.key (fun y => { y with stored := y.stored ++ [⟨seq, plain, false, some b.1⟩] }))
    | none => (.noBuffer, s.bump (.die c.part (4 + lineDie m) 1))
  | (.breach, s) => (.fresh, s.failStream c.key .streamFailed true)

/-- R319 for a sequenced segment. -/
def arrive (s : State) (m : Nat) (c : Ctx) (seq : Nat) (plain : Octets) : Arrival × State :=
  if earlier 32 seq c.cumulative || c.stored.any (fun x => x.seq == seq) then (.duplicate, s.bump (.line c.part m 2))
  else if seq == c.cumulative then s.arriveNext m c seq plain
  else if later 32 seq c.cumulative && decide (serialDiff 32 seq c.cumulative < c.advertised) then
    match s.holdBuffer c.part m plain with
    | some b => (.stored, b.2.updCtx c.key (fun y => { y with stored := y.stored ++ [⟨seq, plain, true, some b.1⟩] }))
    | none => (.noBuffer, s.bump (.die c.part (4 + lineDie m) 1))
  else (.beyond, s.bump (.line c.part m 5))

/-- A record becomes due now, unless one is due already (R312). -/
def makeDue (s : State) (k : CtxKey) : State :=
  s.updCtx k (fun c => if c.recordDue.isSome then c else { c with recordDue := some s.now })

/-- An arrival of the timestamp given counts toward a record (R312, R313, R371). -/
def noteArrival (s : State) (m : Nat) (k : CtxKey) (a : Arrival) (now : Nat) : State :=
  let isNew := a == .fresh || a == .advance || a == .stored
  let s := s.updCtx k (fun c => if c.state != .open then c else { c with
    arrivals := c.arrivals + 1, firstArrival := some (c.firstArrival.getD now), lastArrival := if isNew then now else c.lastArrival,
    rxLine := m })
  let due := a == .advance || a == .duplicate || a == .noBuffer || ((s.ctx k).map (fun c => decide (8 ≤ c.arrivals))).getD false
  if due && ((s.ctx k).map (fun c => c.state == .open)).getD false then s.makeDue k else s

/-- A timestamp of a received frame, or that of now where none is given (R371). -/
def arrivedAt (s : State) (m : Nat) (t : Option Nat) : Nat := t.getD (s.stamp (64 + m) true)

/-- A sequenced segment of an OPEN context (R304, R312, R319). -/
def receive (s : State) (m : Nat) (c : Ctx) (seq : Nat) (plain : Octets) (at0 : Nat) : State :=
  let s := s.touchCache (lineDie c.line) c.part c.key
  let a := s.arrive m c seq plain
  a.2.noteArrival m c.key a.1 at0

/-! ### Retransmission (R314, R316 to R318) -/

/-- A held segment is queued to be sent again; an OPEN goes with the control segments (R272, R317). -/
def sendAgain (s : State) (k : CtxKey) (seq : Nat) : State :=
  match s.ctx k with
  | none => s
  | some c =>
    match c.held.find? (fun h => h.seq == seq) with
    | none => s
    | some h =>
      if h.queued then s
      else
        let s := s.updCtx k (fun y => { y with held := mapWhen (fun z => z.seq == seq) (fun z => { z with queued := true }) y.held })
        match h.body with
        | .data _ => s.updLine c.line (fun l => { l with retx := l.retx ++ [(k, seq)] })
        | _ => s.updLine c.line (fun l => { l with controls := l.controls ++ [⟨k, c.part, c.cls, c.incarnation, none⟩] })

/-- The holds of a segment are released, and what was queued of it is withdrawn (R311, R317). -/
def releaseSeg (s : State) (k : CtxKey) (h : HeldSeg) : State :=
  let s := s.updCtx k (fun c => { c with held := c.held.filter (fun x => x.seq != h.seq) })
  let s := if h.queued then match h.body with
      | .data _ => { s with lines := s.lines.map (fun l => { l with retx := l.retx.filter (· != (k, h.seq)) }) }
      | _ => { s with lines := s.lines.map (fun l => { l with controls := l.controls.filter (fun w => w.ctx != k || w.reset.isSome) }) }
    else s
  (heldBufs h).foldl decRef s

/-- A record applied to its context (R314, R316, R317). -/
def applyRecord (s : State) (m : Nat) (r : AckRec) : State :=
  let k := if r.reverse then accKey r.stream (s.siteOfLine m) else origKey r.stream
  match s.ctx k with
  | none => s
  | some c =>
    if c.state != .open || c.incarnation != r.incarnation then s
    else if later 32 r.cumulative c.sendNext then
      (s.bumpPart c.part 7).raise 0x0701 (some c.part) (oct 2 ++ leBytes 4 r.stream)
    else
      let s := s.touchCache (lineDie c.line) c.part k
      let at0 := s.arrivedAt m r.arrived
      let moves := later 32 r.cumulative c.sendBase
      let base := if moves then r.cumulative else c.sendBase
      let covered := c.held.filter (fun h =>
        (moves && decide (serialDiff 32 h.seq c.sendBase < serialDiff 32 r.cumulative c.sendBase)) || recordBit r h.seq)
      let s := covered.foldl (fun s h => s.releaseSeg k h) s
      let clean := covered.filter (fun h => h.retries == 0 && h.firstSent.isSome)
      let newest := clean.foldl (fun (b : Option HeldSeg) h => match b with
        | none => some h
        | some x => if serialDiff 32 x.seq c.sendBase < serialDiff 32 h.seq c.sendBase then some h else some x) none
      let s := s.updCtx k (fun y =>
        let y := { y with sendBase := base, peerWindow := if r.cumulative == base then r.window else y.peerWindow }
        match newest with
        | some h => rttSample y (max 1 (rneDiv ((at0 : Int) - h.firstSent.getD 0) 2 - r.delay).toNat)
        | none => y)
      match s.ctx k with
      | none => s
      | some c =>
        match c.srtt with
        | none => s
        | some rtt =>
          (c.held.filter (fun h => h.firstSent.isSome && decide (3 ≤ laterBits r h.seq) && decide (h.lastSent + 2 * rtt ≤ at0))).foldl
            (fun s h => s.sendAgain k h.seq) s

/-! ### OPEN (R302, R322, R323) -/

/-- An accepted context's items and holds are discarded before a new incarnation takes its place (R322). -/
def discardCtx (s : State) (c : Ctx) : State :=
  let s := (s.unqueueCtx c.key).updCtx c.key (fun x => { x with held := [], stored := [], item := none, sending := none, waitBuffer := none })
  (s.ctxItems c.key).foldl dropItem ((ctxBufs c).foldl decRef s)

/-- An OPEN that opened under the keys of partition p (R302, R322, R323). -/
def openArrives (s : State) (m p : Nat) (h : SegHdr) (b : ControlBody) : State :=
  let site := s.siteOfLine m
  let k := accKey h.stream site
  let t := b.secs * nsPerSec + b.ns
  let old := s.ctx k
  match old.filter (fun c => c.incarnation == h.incarnation && c.openTime == t) with
  | some c => if c.state == .open then s.receive m c 0 [] (s.arrivedAt m h.arrived) else s.bump (.line p m 2)
  | none =>
    if !s.quartz.set || t + 10 * nsPerSec < s.now || s.now + nsPerSec < t || (old.map (fun c => decide (t ≤ c.openTime))).getD false then
      s.bumpPart p 5
    else if old.isNone && decide (((s.conf.partOf p).map PartRec.streamCount).getD 0 ≤ s.ctxs.countP (fun c => c.key.accepted && c.part == p)) then
      s.bump (.line p m 4)
    else
      let s := match old with
        | some c => s.discardCtx c
        | none => s
      let c : Ctx := { Ctx.fresh p h.stream with
        key := k, state := .open, site := site, line := (pickFlow p h.stream (s.lineCands p site)).getD m, rxLine := m,
        incarnation := h.incarnation, cls := b.cls, openTime := t }
      (s.putCtx c).receive m c 0 [] (s.arrivedAt m h.arrived)

/-! ### Operations from the line (R48, R50, R130, R321) -/

/-- A remote operation has not started: held, or come and not yet handled. -/
def remoteWaits (s : State) (r : RemoteOp) : Bool :=
  r.held.isSome || s.handed.any (fun h => h.1 == some r.id && (match h.2 with
    | .remoteOperationRx .. => true
    | _ => false))

/-- The first operation that waits behind others of its stream comes again (R133). -/
def wakeRemote (s : State) (k : CtxKey) : State :=
  match s.remoteOps.find? (fun r => r.ctx == k && r.held.isSome) with
  | some r =>
    match r.held with
    | some i => ({ s with remoteOps := mapWhen (fun y => y.id == r.id) (fun y => { y with held := none }) s.remoteOps } : State).resume r.id i
    | none => s
  | none => s

/-- A remote operation answered before it runs; those behind it go on. -/
def refuseRemote (s : State) (id : Nat) (k : CtxKey) (st : Status) : State := (s.remoteAnswer id st []).wakeRemote k

/-- A remote operation whose form is right: BAD_DESCRIPTOR for an address at a remote site; held where windows or mirror ask for it, or
an earlier operation of its stream waits; the check of R48, then the node path or a device-local access (R48, R50, R130, R132 to
R134). The replies of R43 are for descriptors: while its partition reloads the operation is held for the new windows (R50), and that
of a HALTED or STARTING partition gets the reply that R43 gives a descriptor (log entry 13). An item for a node keeps the Basalt
buffer until its last octet is written (R264). -/
def runRemote (s : State) (id p : Nat) (c : Ctx) (cmd : Instr) (m : MemOp) (op bodyLen : Nat) (x : Rights) (body : Octets)
    (act : State → Octets × State) : State :=
  if m.space == .global && s.siteRemote (siteOf m.addr) then s.refuseRemote id c.key .badDescriptor
  else match if (s.part p).state == .reloading then none else s.stateReply p op with
  | some st => s.refuseRemote id c.key st
  | none =>
    if (s.part p).state == .reloading || s.memHeld p m (op != 0x11) || s.remoteOps.any (fun r => decide (r.id < id) && r.ctx == c.key &&
      s.remoteWaits r) then
      { s with remoteOps := mapWhen (fun r => r.id == id) (fun r => { r with held := some cmd }) s.remoteOps }
    else if !(s.access p m.space m.cluster m.addr m.length x.inbound) then s.refuseRemote id c.key .segmentFault
    else if m.space == .global then
      let n := s.sw.nextItem
      let b := (s.remoteOps.find? (fun r => r.id == id)).bind RemoteOp.buf
      let t := s.sendNode p (Fin.ofNat 8 c.cls) (.lineIn c.rxLine) (.remote id) op (nodeOf m.addr) bodyLen body none
      (if t.sw.nextItem == n then t
       else ({ t with remoteOps := mapWhen (fun r => r.id == id) (fun r => { r with buf := none }) t.remoteOps } : State).updItem n
         (fun i => { i with lineBuf := b })).wakeRemote c.key
    else
      let r := act s
      (r.2.remoteAnswer id .ok r.1).wakeRemote c.key

/-- A reassembled remote operation of a site (R321). -/
def remoteOperation (s : State) (p : PartId) (site : Nat) (x : Octets) : State :=
  let stream := beAt 8 4 x % 1048576
  match s.ctx (accKey stream site) with
  | none => s
  | some c =>
    if c.part != p.val then s
    else
      let op := octetAt 2 x
      let cmd := Instr.remoteOperationRx p site x
      let id := s.resuming.getD s.nextRemote
      let s := if s.resuming.isSome then s else
        { s with remoteOps := s.remoteOps ++ [freshRemote id c x none], nextRemote := id + 1 }
      let h : DescHdr := { port := 0, vlan := 0, cls := Fin.ofNat 8 c.cls, src := 0, wantCompletion := false, fence := false,
                           tag := BitVec.ofNat 32 (beAt 4 4 x), stream := stream, units := 0 }
      let body := yuvBody x
      if octetAt 0 x != 1 || octetAt 1 x != 1 then s.refuseRemote id c.key .badDescriptor
      else match parseDescriptor h x with
        | some (.memPut _ m d) => s.runRemote id p c cmd m op 0 .write body (fun s => ([], s.putLocal m d))
        | some (.memGet _ m) =>
          s.runRemote id p c cmd m op m.length .read body (fun s => (s.readLocal m.space m.cluster m.addr m.length,
            s.noteRead none m.space m.cluster m.addr m.length))
        | some (.memAtomic _ m a) =>
          if m.addr % a.width ≠ 0 then s.refuseRemote id c.key .badDescriptor
          else s.runRemote id p c cmd m op 8 .atomic body (fun s =>
            let r := s.atomicLocal m.space m.cluster m.addr a.width a.op a.a a.b
            (beBytes 8 r.1, r.2))
        | _ => s.refuseRemote id c.key .badDescriptor

end State

/-! ### Meanings -/

/-- DATA_SEGMENT_RX (R308 step 4, R319 to R321, R341). -/
def execDataSegmentRx (m : LinePort) (h : SegHdr) (body : Octets) (s : State) : Host.Outcome State Fault Refusal :=
  match s.bodyOpened m h with
  | (none, s) => .next s
  | (some p, s) =>
    match s.bodyCtx m h with
    | none => .next (s.bump (.line p m 4))
    | some c => .next (s.receive m c h.seq body (s.arrivedAt m h.arrived))

/-- ACK_BLOCK_RX (R314, R316, R317). -/
def execAckBlockRx (m : LinePort) (records : List AckRec) (s : State) : Host.Outcome State Fault Refusal :=
  .next (records.foldl (fun s r => s.applyRecord m r) s)

/-- STREAM_OPEN_RX (R302, R323). -/
def execStreamOpenRx (m : LinePort) (h : SegHdr) (b : ControlBody) (s : State) : Host.Outcome State Fault Refusal :=
  match s.bodyOpened m h with
  | (none, s) => .next s
  | (some p, s) => .next (s.openArrives m p h b)

/-- STREAM_RESET_RX (R308 step 4, R322). -/
def execStreamResetRx (m : LinePort) (h : SegHdr) (b : ControlBody) (s : State) : Host.Outcome State Fault Refusal :=
  match s.bodyOpened m h with
  | (none, s) => .next s
  | (some p, s) =>
    match s.bodyCtx m h with
    | none => .next (s.bump (.line p m 4))
    | some c => .next (s.failStream c.key b.status false)

/-- REMOTE_OPERATION_RX (R48, R130, R321). -/
def execRemoteOperationRx (p : PartId) (site : Nat) (item : Octets) (s : State) : Host.Outcome State Fault Refusal :=
  .next (s.remoteOperation p site item)

/-- ACK_DELAY_EXPIRY (R312): a record becomes due where an arrival is not covered by one. -/
def execAckDelayExpiry (k : CtxKey) (s : State) : Host.Outcome State Fault Refusal :=
  match s.ctx k with
  | some c => .next (if c.state == .open && c.firstArrival.isSome then s.makeDue k else s)
  | none => .next s

/-- RETX_TIMER (R317, R318): the base segment is sent again, or the stream fails after 16 retransmissions. -/
def execRetxTimer (k : CtxKey) (s : State) : Host.Outcome State Fault Refusal :=
  match s.ctx k with
  | some c =>
    .next (match c.held.find? (fun h => h.seq == c.sendBase) with
      | some h => if h.firstSent.isNone then s else if 16 ≤ h.retries then s.failStream k .streamFailed true else s.sendAgain k h.seq
      | none => s)
  | none => .next s

/-- STREAM_AGE_FAIL (R318). -/
def execStreamAgeFail (k : CtxKey) (s : State) : Host.Outcome State Fault Refusal :=
  match s.ctx k with
  | some c => .next (if c.held.any (fun h => h.firstSent.isSome) then s.failStream k .streamFailed true else s)
  | none => .next s

/-- REASSEMBLY_BUFFER_GRANT (R321): delivery resumes from the stored segment at the cumulative when its item gets its buffer. No
record becomes due by it: R312 names arrivals only. -/
def execReassemblyBufferGrant (k : CtxKey) (s : State) : Host.Outcome State Fault Refusal :=
  match s.ctx k with
  | some c =>
    if c.state == .open && c.waitBuffer.isSome then
      let r := State.runStored c.rxLine k (c.stored.length + 1) false s
      .next r.2
    else .next s
  | none => .next s

end Sys2Proof.Machine
end

