-- ==== Sys2Proof/Machine/LineRx.lean ====
section
/-! DEFINITION. Receiving basic frames: alignment, multiframes, decoding, the section check, trail trace and overhead
authentication, segments, management channels, defects and line keys (R282 to R293, R306, R308, R342). -/

namespace Sys2Proof.Machine

/-! ### Alignment (R283, R285) -/

/-- The physical lane that carries each logical lane, as the FAS word at the start of each lane frame tells it; none where the eight
words are not distinct (R283). -/
def laneOrder (lanes : List (Nat × List Nat)) : Option (List Nat) := do
  okIf (lanes.length == 8)
  fasWords.mapM (fun w => lanes.findIdx? (fun l => l.2.head? == some w))

/-- Lane offsets by logical lane, where the eight FAS words are distinct and the skew is at most 4,096 lane bits (R283, R285). -/
def laneOffsets (lanes : List (Nat × List Nat)) : Option (List Nat) := do
  let o ← laneOrder lanes
  let offs := o.map (fun i => (lanes.getD i (0, [])).1 % 10625)
  okIf (offs.any (fun o => offs.all (fun x => decide ((x + 10625 - o) % 10625 ≤ 4096))))
  pure offs

/-- The frame that the lanes make, taken in a given order (R283). -/
def lanesFrame (order : List Nat) (lanes : List (Nat × List Nat)) : Octets := laneJoin (order.map (fun i => (lanes.getD i (0, [])).2))

/-- The multiframe machine after a frame time, with the decoded MFAS, or none for an uncorrectable frame and while out of frame (R286). In
OOM the expected counter runs on from where it stood, so that multiframes that it counts off go on failing (R291, log entry 23). -/
def multiStep (r : LineRxState) (mfas : Option Nat) : LineRxState :=
  if r.inMulti then
    let e := (r.expected + 1) % 256
    let bad := if mfas == some e then 0 else r.badSeq + 1
    if bad ≥ 5 then { r with inMulti := false, expected := e, badSeq := 0, goodSeq := 0, lastMfas := mfas }
    else { r with expected := e, badSeq := bad }
  else
    let e := (r.expected + 1) % 256
    match mfas with
    | none => { r with expected := e, goodSeq := 0, lastMfas := none }
    | some v =>
      let good := if r.lastMfas == some ((v + 255) % 256) then r.goodSeq + 1 else 0
      if good ≥ 2 then { r with inMulti := true, expected := v, badSeq := 0, goodSeq := 0, lastMfas := some v }
      else { r with expected := e, goodSeq := good, lastMfas := some v }

/-- A multiframe taken up when none of its frames is known. -/
def RxMultiframe.empty : RxMultiframe := ⟨[], [], [], false⟩

/-- The overhead octets of a frame, numbered by the expected counter, join their multiframe (R290, R291). A frame lost, out of its place
or met in OOM leaves it bad, and one of frames 0 to 27 the proof of the multiframe before it. -/
def multiCollect (r : LineRxState) (o : Option Overhead) : LineRxState :=
  let f := r.expected
  let r := if f == 0 then { r with prev := some r.cur, cur := .empty, otag := [], kep := ((o.map Overhead.kep).getD 0), otagBad := false } else r
  let bad := o.isNone || !r.inMulti || r.cur.tti.length != f
  if r.cur.bad || bad then { r with cur := { r.cur with bad := true }, otagBad := r.otagBad || decide (f < 28) }
  else
  let mch := (o.map Overhead.mch).getD 0
  let c : RxMultiframe :=
    { tti := r.cur.tti ++ [BitVec.ofNat 8 ((o.map Overhead.tti).getD 0)],
      chA := if f % 64 == 0 then r.cur.chA ++ [BitVec.ofNat 8 mch] else r.cur.chA,
      chB := if f % 64 == 32 then r.cur.chB ++ [BitVec.ofNat 8 mch] else r.cur.chB,
      bad := false }
  if f < 28 then { r with cur := c, otag := r.otag ++ [BitVec.ofNat 8 ((o.map Overhead.otag).getD 0)] } else { r with cur := c }

/-! ### Segments (R305, R306) -/

/-- A received segment's header (R305). -/
def segHdr (x : Octets) : SegHdr :=
  { stream := beAt 4 4 x % 1048576, reverse := bitOf (octetAt 2 x) 0, retransmission := bitOf (octetAt 2 x) 2, epoch := octetAt 3 x,
    seq := beAt 8 4 x, incarnation := beAt 12 2 x, keySlot := beAt 14 2 x, salt := beAt 20 4 x, counter := beAt 24 8 x }

/-- Step 1 of R308 on a segment's header and block: nothing reserved, lengths in range and in agreement with the kind. -/
def segmentOk (x : Octets) : Bool :=
  let kind := octetAt 1 x
  let fl := octetAt 2 x
  let a := beAt 16 2 x
  let d := beAt 18 2 x
  let r := (a - 32) / 56
  octetAt 0 x == 1 && fl < 8 && beAt 4 4 x < 1048576 && (bitOf fl 1 == (a != 0)) &&
  (a == 0 || (a == 32 + 56 * r && 1 ≤ r && r ≤ 64 && octetAt 32 x == r && zerosAt 34 2 x &&
    (List.range r).all (fun i =>
      let o := 48 + 56 * i
      beAt o 4 x % 2 ^ 31 < 1048576 && zerosAt (o + 6) 2 x && zerosAt (o + 20) 4 x && beAt (o + 12) 4 x ≤ 2 ^ 30))) &&
  (match kind with
   | 1 => 8 ≤ d && d + a ≤ 9662 && 32 + a + d + 16 ≤ 9710
   | 2 => fl == 2 && a != 0 && d == 0 && zerosAt 3 13 x && zerosAt 20 12 x
   | 3 => d == 24
   | _ => false)

/-- A record of an acknowledgement block (R306). -/
def ackRec (x : Octets) : AckRec :=
  { stream := beAt 0 4 x % 1048576, reverse := decide (2 ^ 31 ≤ beAt 0 4 x), incarnation := beAt 4 2 x, cumulative := beAt 8 4 x,
    window := beAt 12 4 x, delay := beAt 16 4 x, bitmap := slice 24 32 x }

/-- The plaintext of a CONTROL body with its op; none where a reserved field or code is used, or an OPEN is not forward or not of
sequence 0 (R307, R308). -/
def parseControl (h : SegHdr) (x : Octets) : Option (Nat × ControlBody) := do
  let op := octetAt 0 x
  let st ← statusOfCode (octetAt 1 x)
  okIf ((op == 1 || op == 2) && zerosAt 3 5 x && zerosAt 8 2 x && zerosAt 20 4 x && h.seq == 0 && octetAt 2 x < 8 &&
    (if op == 1 then octetAt 1 x == 0 && !h.reverse else octetAt 2 x == 0))
  pure (op, { status := st, cls := Fin.ofNat 8 (octetAt 2 x), secs := beAt 8 8 x, ns := beAt 16 4 x })

namespace State

/-- A defect is declared or cleared, and logged (R298, R478). -/
def lineEvent (s : State) (m defect : Nat) (on : Bool) : State := s.raise 0x0601 none (oct 0 ++ oct m ++ oct defect ++ oct (if on then 1 else 0))

/-! ### Line keys of the receiver (R342) -/

/-- The line keys of an activation index and nonce that a receiver holds or derives: those held, then those that the master of the
port's slot and a staged master give with the expected trace (R338, R342, R347). -/
def rxLineKeys (s : State) (m a nonce : Nat) : List LineKey :=
  (s.line m).rx.keys.filter (fun k => k.a == a && k.nonce == nonce) ++
    (match s.conf.lineOf m with
     | none => []
     | some r => ((((s.keySlot r.keySlot).bind currentKey).toList ++ ((s.keySlot r.keySlot).bind nextKey).toList).map (fun c =>
         let d := deriveLine c.1 a nonce r.expected
         ⟨a, nonce, d.1, d.2⟩)))

/-- A line key under which a tag has verified: the two latest of a port are kept, and one that a staged master gives moves the slot to
that master (R341, R342, R347). -/
def keepLineKey (s : State) (m : Nat) (k : LineKey) : State :=
  let slot := ((s.conf.lineOf m).map LineRec.keySlot).getD 0
  let staged := !((s.line m).rx.keys.contains k) && ((s.keySlot slot).bind (fun y => if y.staged.isSome then nextKey y else none)).any (fun c =>
    let d := deriveLine c.1 k.a k.nonce (((s.conf.lineOf m).map LineRec.expected).getD [])
    d.1 == k.key && d.2 == k.salt && ((s.keySlot slot).bind currentKey).any (fun o => o.1 != c.1))
  let s := s.updLine m (fun l => { l with rx := { l.rx with keys := (k :: l.rx.keys.filter (fun x => x != k)).take 2 } })
  if staged then s.switchStaged slot else s

/-! ### Trail trace and overhead authentication (R290, R291, R293) -/

/-- The accepted trace is compared with the expected one (R290). -/
def checkTrace (s : State) (m : Nat) : State :=
  let want := ((s.conf.lineOf m).map LineRec.expected).getD []
  let bad := (s.line m).rx.trace != fitTo 64 0 want
  if bad == (s.line m).rx.dtim then s
  else (s.updLine m (fun l => { l with rx := { l.rx with dtim := bad } })).lineEvent m 4 bad

/-- One trace period joins the run; three equal ones give the accepted trace (R290). -/
def tracePeriod (s : State) (m : Nat) (x : Octets) : State :=
  let run := ((s.line m).rx.tracePeriods ++ [x])
  let run := run.drop (run.length - 3)
  let s := s.updLine m (fun l => { l with rx := { l.rx with
    tracePeriods := run, trace := if run.length == 3 && run.all (· == x) then x else l.rx.trace } })
  s.checkTrace m

/-- A channel group enters its receive buffer of two; an overrun discards the older (R293). -/
def channelIn (s : State) (m : Nat) (isB : Bool) (g : Octets) : State :=
  let r := (s.line m).rx
  let q := if isB then r.chanB else r.chanA
  let slip := decide (2 ≤ q.length)
  let q' := (if slip then q.drop 1 else q) ++ [g]
  let s := s.updLine m (fun l => { l with rx := if isB then { l.rx with chanB := q', slipB := l.rx.slipB || slip }
      else { l.rx with chanA := q', slipA := l.rx.slipA || slip } })
  if slip then s.bump (.page m (if isB then 8 else 7)) else s

/-- A multiframe fails authentication: counted, its octets discarded, the trace run broken (R290, R291). -/
def multiFails (s : State) (m : Nat) : State :=
  (s.bump (.page m 6)).updLine m (fun l => { l with rx := { l.rx with tracePeriods := [] } })

/-- The proof of the multiframe before the present one is verified after frame 27 (R291). -/
def multiVerify (s : State) (m : Nat) : State :=
  let r := (s.line m).rx
  match r.prev with
  | none => s
  | some f =>
    let s := s.updLine m (fun l => { l with rx := { l.rx with prev := none } })
    let counter := beAt 16 8 r.otag
    let fresh := match r.lastCounter with
      | some c => decide (c < counter)
      | none => true
    if f.bad || r.otagBad || f.tti.length != 256 || !fresh || r.kep != counter / 2 ^ 32 % 256 then s.multiFails m
    else match (s.rxLineKeys m (counter / 2 ^ 32) (beAt 24 4 r.otag)).find? (fun k =>
        gcmTag k.key (k.salt ++ beBytes 8 counter) (f.tti ++ fitTo 4 0 f.chA ++ fitTo 4 0 f.chB) [] == r.otag.take 16) with
      | none => s.multiFails m
      | some k =>
          let s := (s.keepLineKey m k).updLine m (fun l => { l with rx := { l.rx with lastCounter := some counter } })
          let s := (List.range 4).foldl (fun s i => s.tracePeriod m (slice (64 * i) 64 f.tti)) s
          (s.channelIn m false (fitTo 4 0 f.chA)).channelIn m true (fitTo 4 0 f.chB)

/-! ### Segments (R308) -/

/-- Step 2 of R308: an acknowledgement block is verified, and its records handed on. -/
def blockIn (s : State) (m : Nat) (x : Octets) (a at0 : Nat) : State :=
  let counter := beAt 40 8 x
  let epoch := octetAt 33 x
  let fresh := match (s.line m).rx.ackCounters.lookup epoch with
    | some c => decide (c < counter)
    | none => true
  let n := a - 16
  let keys := if fresh && epoch == counter / 2 ^ 32 % 256 then s.rxLineKeys m (counter / 2 ^ 32) (beAt 36 4 x) else []
  match keys.find? (fun k => gcmTag k.key (k.salt ++ beBytes 8 counter) (x.take 32 ++ slice 32 n x) [] == slice (32 + n) 16 x) with
  | none => s.bump (.page m 10)
  | some k =>
      let s := (s.keepLineKey m k).updLine m (fun l => { l with rx := { l.rx with ackCounters := setEntry epoch counter l.rx.ackCounters } })
      s.hand (.ackBlockRx (fin16 m) ((List.range (octetAt 32 x)).map (fun i => { ackRec (slice (48 + 56 * i) 56 x) with arrived := some at0 })))

/-- The key that opens a body: the current or the next of the named slot, which the stream's partition holds with usage 0x01
(R303, R308, R338). -/
def openKey (s : State) (p : Nat) (h : SegHdr) : Option Octets := do
  let k ← s.keySlot h.keySlot
  okIf (k.part == p && k.usage == 1)
  let c ← if h.epoch == epochOf k then currentKey k else if h.epoch == nextEpoch k then nextKey k else none
  pure c.1

/-- Step 3 of R308: a body is opened, and handed on. -/
def bodyIn (s : State) (m : Nat) (x : Octets) (a d at0 : Nat) : State :=
  let h := { segHdr x with arrived := some at0 }
  match s.streamPart h.stream with
  | none => s.bump (.page m 9)
  | some p =>
    match (s.openKey p h).bind (fun k =>
        gcmOpen k (slice 20 12 x) (x.take 32) (slice (32 + a) d x) (slice (32 + a + d) 16 x)) with
    | none => s.bump (.line p m 3)
    | some plain =>
      if octetAt 1 x == 1 then s.hand (.dataSegmentRx (fin16 m) h plain)
      else match parseControl h plain with
        | some (1, b) => s.hand (.streamOpenRx (fin16 m) h b)
        | some (_, b) => s.hand (.streamResetRx (fin16 m) h b)
        | none => s.bump (.page m 9)

/-- A segment from a line port, with the receive timestamp of its frame: steps 1 to 3 of R308. -/
def segmentIn (s : State) (m : Nat) (x : Octets) : State :=
  if !(segmentOk x) then s.bump (.page m 9)
  else
    let a := beAt 16 2 x
    let d := beAt 18 2 x
    let t := s.stamp (64 + m) true
    let s := if a == 0 then s else s.blockIn m x a t
    if d == 0 then s else s.bodyIn m x a d t

/-! ### Frames (R284 to R290, R295) -/

/-- An errored block of the near end (R295). -/
def nearBlock (s : State) (m : Nat) : State := s.updLine m (fun l => { l with pm := { l.pm with cur := { l.pm.cur with near := l.pm.cur.near + 1 } } })

/-- Frame alignment is lost: OOF, and OOM with it; the multiframe being received fails, and the one before it while its proof is awaited
(R285, R286, R291). -/
def enterOof (s : State) (m : Nat) : State :=
  s.updLine m (fun l => { l with rx := { l.rx with
    inFrame := false, order := [], candidate := none, badFas := 0, inMulti := false, lastMfas := none, goodSeq := 0, badSeq := 0, bip := none,
    cur := { l.rx.cur with bad := true }, prev := l.rx.prev.map (fun f => { f with bad := true }) } })

/-- The multiframe machine and what it collects, on one frame time; a multiframe whose proof has never come fails (R286, R290, R291). -/
def multiFrame (s : State) (m : Nat) (o : Option Overhead) : State :=
  let r := multiStep (s.line m).rx (o.map Overhead.mfas)
  let s := if r.expected == 0 && r.prev.isSome then s.multiFails m else s
  let s := s.updLine m (fun l => { l with rx := multiCollect { r with tracePeriods := l.rx.tracePeriods } o })
  if r.expected == 27 then s.multiVerify m else s

/-- A lane frame time in OOF (R283, R285, R295). -/
def searchFrame (s : State) (m : Nat) (r : LineRx) : State :=
  let s := (s.nearBlock m).multiFrame m none
  match laneOrder r.lanes, laneOffsets r.lanes with
  | some o, some offs =>
    if (s.line m).rx.candidate == some offs then
      s.updLine m (fun l => { l with rx := { l.rx with inFrame := true, order := o, candidate := none, badFas := 0 } })
    else s.updLine m (fun l => { l with rx := { l.rx with candidate := some offs } })
  | _, _ => s.updLine m (fun l => { l with rx := { l.rx with candidate := none } })

/-- The payload of a frame in IF goes to the transport, or is discarded and counted (R287). -/
def payloadIn (s : State) (m : Nat) (o : Option Overhead) (info : Octets) : State :=
  match o with
  | none => s.bump (.page m 4)
  | some o =>
    if o.pt == 0 then s
    else if o.pt != 1 then (s.bump (.page m 5)).bump (.page m 4)
    else if (s.line m).rx.dtim && ((s.conf.lineOf m).map LineRec.traceStops).getD false then s.bump (.page m 4)
    else s.segmentIn m (slice 65 9710 info)

/-- A frame in IF is descrambled, decoded and checked (R284, R287 to R289, R295, R297). -/
def decodeRx (s : State) (m : Nat) (x : Octets) : State :=
  let d := decodeFrame (scrambleFrame x)
  let o := if d.bad == 0 then some (overheadOf d.info) else none
  let s := (s.bumpBy (.page m 0) d.corrected.sum).bumpBy (.page m 1) d.bad
  let viol := match o, (s.line m).rx.bip with
    | some o, some b => bipViolations b o.bip
    | _, _ => 0
  let s := s.bumpBy (.page m 3) viol
  let s := s.updLine m (fun l => { l with
    rx := { l.rx with bip := if d.bad == 0 then some (bip16 d.info) else none },
    tx := { l.tx with bei := l.tx.bei + viol, bue := l.tx.bue + d.bad },
    pm := { l.pm with cur := { l.pm.cur with
      corrected := l.pm.cur.corrected + d.corrected.sum, uncorrectable := l.pm.cur.uncorrectable + d.bad,
      peak := d.corrected.foldl max l.pm.cur.peak,
      far := l.pm.cur.far + (if (o.map (fun o => decide (0 < o.bei) || decide (0 < o.bue))).getD false then 1 else 0),
      farDefect := l.pm.cur.farDefect || (o.map Overhead.bdi).getD false } } })
  let s := if d.bad != 0 || viol != 0 then s.nearBlock m else s
  let s := s.snareFrame m true (((s.streamPart (beAt 69 4 d.info % 1048576)).filter (fun _ => octetAt 12 d.info == 1)).getD 0) d.info
  (s.multiFrame m o).payloadIn m o d.info

/-- One basic frame time of a line port's receiver (R283 to R291). -/
def frameIn (s : State) (m : Nat) (r : LineRx) : State :=
  if !(s.lineUp m) then s
  else if !(s.line m).rx.inFrame then s.searchFrame m r
  else
    let x := lanesFrame (s.line m).rx.order r.lanes
    let errored := x.take 5 != fasOctets
    let s := if errored then s.bump (.page m 2) else s
    let n := if errored then (s.line m).rx.badFas + 1 else 0
    if n ≥ 5 then (s.enterOof m).nearBlock m
    else (s.updLine m (fun l => { l with rx := { l.rx with badFas := n } })).decodeRx m x

/-- A defect flag of a port set or cleared, with its event; nothing where it stands so already (R285, R286, R295, R298). -/
def setDefect (s : State) (m defect : Nat) (on was : Bool) (f : LineRxState → LineRxState) : State :=
  if !(s.lineUp m) || on == was then s
  else
    let s := s.updLine m (fun l => { l with rx := f l.rx, pm := { l.pm with cur := { l.pm.cur with nearDefect := l.pm.cur.nearDefect || on } } })
    s.lineEvent m defect on

/-! ### Management channels (R292, R293) -/

/-- One slot of a serial frame on RXD; its group leaves the buffer (R292, R293). -/
def rxdSlot (s : State) (n slot : Nat) : Octets × State :=
  let m := 4 * n + slot / 2
  let isB := slot % 2 == 1
  let r := (s.line m).rx
  if !(s.lineUp m) then (zeros 5, s)
  else
    let q := if isB then r.chanB else r.chanA
    let slip := if isB then r.slipB else r.slipA
    let flags := (if q.isEmpty then 0 else 128) + (if r.dlos || r.dlof || r.dlom then 64 else 0) + (if slip then 32 else 0)
    (BitVec.ofNat 8 flags :: fitTo 4 0 (q.headD []),
     s.updLine m (fun l => { l with rx := if isB then { l.rx with chanB := q.drop 1, slipB := false }
       else { l.rx with chanA := q.drop 1, slipA := false } }))

/-- One slot of TXD: its octets go in the multiframe that begins when the serial frame ends (R292). -/
def txdSlot (s : State) (n slot : Nat) (txd : Octets) : State :=
  let m := 4 * n + slot / 2
  let g := fitTo 4 0 (slice (5 * slot + 1) 4 txd)
  if !(s.lineUp m) then s
  else s.updLine m (fun l => { l with tx := if slot % 2 == 1 then { l.tx with nextB := g } else { l.tx with nextA := g } })

/-- A serial frame of MCHn: RXD leaves, TXD is taken (R292, R293). -/
def serialFrame (s : State) (n : Nat) (txd : Octets) : State :=
  let r := (List.range 8).foldl (fun (a : Octets × State) k =>
    let b := a.2.rxdSlot n k
    (a.1 ++ b.1, b.2.txdSlot n k txd)) ([], s)
  r.2.emit (.mch n r.1)

end State

/-! ### Meanings -/

/-- LINE_FRAME_RX (R284 to R291, R308). -/
def execLineFrameRx (m : LinePort) (r : LineRx) (s : State) : Host.Outcome State Fault Refusal := .next (s.frameIn m r)

/-- DLOS_DECLARE (R285): dLOS, and OOF with it. -/
def execDlosDeclare (m : LinePort) (s : State) : Host.Outcome State Fault Refusal :=
  .next (if (s.line m).rx.dlos || !(s.lineUp m) then s
    else (s.setDefect m 1 true false (fun r => { r with dlos := true })).enterOof m)

/-- DLOS_CLEAR (R285). -/
def execDlosClear (m : LinePort) (s : State) : Host.Outcome State Fault Refusal :=
  .next (s.setDefect m 1 false (s.line m).rx.dlos (fun r => { r with dlos := false }))

/-- DLOF_DECLARE (R285): OOF has held for 3 ms. -/
def execDlofDeclare (m : LinePort) (s : State) : Host.Outcome State Fault Refusal :=
  .next (if (s.line m).rx.inFrame then s else s.setDefect m 2 true (s.line m).rx.dlof (fun r => { r with dlof := true }))

/-- DLOF_CLEAR (R285): IF has held for 3 ms. -/
def execDlofClear (m : LinePort) (s : State) : Host.Outcome State Fault Refusal :=
  .next (if (s.line m).rx.inFrame then s.setDefect m 2 false (s.line m).rx.dlof (fun r => { r with dlof := false }) else s)

/-- DLOM_DECLARE (R286): OOM has held for 3 ms while dLOF is not declared. -/
def execDlomDeclare (m : LinePort) (s : State) : Host.Outcome State Fault Refusal :=
  .next (if (s.line m).rx.inMulti || (s.line m).rx.dlof then s
    else s.setDefect m 3 true (s.line m).rx.dlom (fun r => { r with dlom := true }))

/-- DLOM_CLEAR (R286): IM has held for 3 ms. -/
def execDlomClear (m : LinePort) (s : State) : Host.Outcome State Fault Refusal :=
  .next (if (s.line m).rx.inMulti then s.setDefect m 3 false (s.line m).rx.dlom (fun r => { r with dlom := false }) else s)

/-- MCH_SERIAL_FRAME (R292, R293). -/
def execMchSerialFrame (n : Fin 4) (txd : Octets) (s : State) : Host.Outcome State Fault Refusal := .next (s.serialFrame n txd)

/-- LINE_KEY_ACTIVATION (R342): the port takes a new activation and nonce. -/
def execLineKeyActivation (m : LinePort) (s : State) : Host.Outcome State Fault Refusal :=
  .next (if s.lineUp m then s.lineActivate m else s)

end Sys2Proof.Machine
end

