-- ==== Sys2Proof/Machine/Pm.lean ====
section
/-! DEFINITION. Performance monitoring of the line ports: seconds, unavailable time and bins (R295 to R299). -/

namespace Sys2Proof.Machine

/-- A near-end SES (R295). -/
def nearSes (x : PmSecond) : Bool := decide (3000000 ≤ x.near) || x.nearDefect

/-- A far-end SES; a second with a near-end defect shows nothing of the far end (R297). -/
def farSes (x : PmSecond) : Bool := !x.nearDefect && (decide (3000000 ≤ x.far) || x.farDefect)

/-- Unavailable time after the onset of a second, from the ten seconds that begin with it (R296). -/
def unavailAfter (was : Bool) (ses : List Bool) : Bool :=
  if was then !(ses.all (fun b => !b)) else ses.length == 10 && ses.all id

/-- A counted second joins a bin (R295 to R297, R299). -/
def binAdd (nearOut farOut : Bool) (x : PmSecond) (b : PmBin) : PmBin :=
  let n := nearSes x
  let f := farSes x
  let es := decide (0 < x.near) || x.nearDefect
  let fes := decide (0 < x.far) || x.farDefect
  let b := if nearOut then { b with uas := b.uas + 1 }
    else { b with es := b.es + es.toNat, ses := b.ses + n.toNat, bbe := b.bbe + (if n then 0 else x.near) }
  let b := if x.nearDefect then b
    else if farOut then { b with farUas := b.farUas + 1 }
    else { b with farEs := b.farEs + fes.toNat, farSes := b.farSes + f.toNat, farBbe := b.farBbe + (if f then 0 else x.far) }
  { b with corrected := b.corrected + x.corrected, uncorrectable := b.uncorrectable + x.uncorrectable, peak := max b.peak x.peak,
           incomplete := b.incomplete || x.off, portOff := b.portOff || x.off }

/-- A bin that starts now, as the start of its period. -/
def PmBin.fresh (period sec : Nat) (incomplete : Bool) : PmBin :=
  { PmBin.zero with start := sec / period * period, incomplete := incomplete }

/-- A second counted into the bin of a period: the bin before it is completed first where the second is not its own, and the bin is
completed with its last second (R296, R299). `keep` bins are kept. -/
def binCount (period keep sec : Nat) (nearOut farOut : Bool) (x : PmSecond) (cur : PmBin) (done : List PmBin) : PmBin × List PmBin :=
  let own := sec / period * period
  let r : PmBin × List PmBin := if cur.start == own then (cur, done)
    else (PmBin.fresh period sec (sec != own), ({ cur with incomplete := true } :: done).take keep)
  let b := binAdd nearOut farOut x r.1
  if sec + 1 == own + period then (PmBin.fresh period (sec + 1) false, (b :: r.2).take keep) else (b, r.2)

/-- A completed second of a line port: its peak is shown at once, and the second nine before it is counted (R296, R298, R299). -/
def pmStep (sec : Nat) (defect off : Bool) (pm : PmState) : PmState :=
  let w := pm.window ++ [(sec, { pm.cur with off := pm.cur.off || off })]
  let pm := { pm with cur := { PmSecond.zero with nearDefect := defect, off := off }, lastPeak := pm.cur.peak, window := w }
  if w.length < 10 then pm
  else match w with
    | [] => pm
    | (n, x) :: rest =>
      let near := unavailAfter pm.nearUnavail (w.map (fun y => nearSes y.2))
      let far := unavailAfter pm.farUnavail (w.map (fun y => farSes y.2))
      let a := binCount 900 96 n near far x pm.bin15 pm.done15
      let b := binCount 86400 7 n near far x pm.bin24 pm.done24
      { pm with window := rest, nearUnavail := near, farUnavail := far, bin15 := a.1, done15 := a.2, bin24 := b.1, done24 := b.2 }

namespace State

/-- A second of one line port ends; its bins begin and complete while it is disabled too (R296, R298, R299). -/
def pmLine (s : State) (m : Nat) : State :=
  let l := s.line m
  let up := s.lineUp m
  let pm := pmStep (s.quartz.secs - 1) (up && (l.rx.dlos || l.rx.dlof || l.rx.dlom)) (!up) l.pm
  if !up then s.updLine m (fun l => { l with pm := pm })
  else
    let s := s.updLine m (fun l => { l with pm := pm })
    let s := if pm.nearUnavail != l.pm.nearUnavail then s.lineEvent m 5 pm.nearUnavail else s
    if pm.farUnavail != l.pm.farUnavail then s.lineEvent m 6 pm.farUnavail else s

end State

/-- PM_SECOND (R295 to R299): the Quartz second before the present one is complete on every line port. -/
def execPmSecond (s : State) : Host.Outcome State Fault Refusal := .next ((List.range 16).foldl State.pmLine s)

end Sys2Proof.Machine
end

