-- ==== Sys2Proof/Machine/Reload.lean ====
section
/-! DEFINITION. Owner-signed reloads and releases: their tests on arrival and what an accepted one does (R44, R109 to R112,
R355, R366). -/

namespace Sys2Proof.Machine

/-- Record types that a reload may hold (R110). -/
def reloadTypes : List Nat := [0x0101, 0x0104, 0x0105, 0x0106, 0x0107, 0x010D]

/-- Keys of directory order strictly rising (R79). -/
def keysRise : List Nat → Bool
  | a :: b :: r => decide (a < b) && keysRise (b :: r)
  | _ => true

/-- The partition of a reload or release record. -/
def reloadPart (x : Octets) : Nat := octetAt 20 x

/-- The fields of R109. -/
def reloadHeadOk (type : Nat) (x : Octets) : Bool :=
  decide (144 ≤ x.length) && decide (x.length ≤ 2 ^ 24) && beAt 0 2 x == type && zerosAt 2 2 x && beAt 4 4 x == x.length &&
    decide (1 ≤ reloadPart x) && decide (reloadPart x < 64) && zerosAt 21 3 x && zerosAt 28 4 x && zerosAt 32 2 x && zerosAt 44 4 x

/-- The embedded records of a reload, each in its form and of its partition (R109, R110, steps 7 and 8 of R99). -/
def reloadConf (x : Octets) : Option Conf := do
  let r := beAt 40 4 x
  let rs ← splitRecords r (slice 48 (x.length - 144) x)
  okIf (rs.length == r && rs.all (fun y => reloadTypes.contains y.1 && recordFormOk ⟨y.1, ownInst y.1 y.2, 0, y.2.length⟩ y.2) &&
    keysRise (rs.map (fun y => y.1 * 65536 + ownInst y.1 y.2)))
  let c ← (parseRecords (rs.map (fun y => (y.1, 0, y.2))) .empty).toOption
  let p := reloadPart x
  okIf (c.parts.length == 1 && c.parts.all (·.part == p) && c.windows.all (·.part == p) && c.blobs.all (·.part == p) &&
    c.groups.all (·.part == p) && c.progs.all (·.part == p) && c.limits.all (·.part == p))
  some c

namespace State

/-- What R110 asks of the PARTITION record against what runs: the isolated flag, and the line ports of an isolated partition. -/
def reloadFits (s : State) (p : Nat) (n : Conf) : Bool :=
  match n.parts.head? with
  | none => false
  | some r =>
    let owns := fun (g : GateRec) => g.entries.any (fun e => e.owner == p)
    (match s.conf.partOf p with
     | some old => old.isolated == r.isolated
     | none => !(s.conf.gates.any owns) || r.isolated) &&
    (!r.isolated || (List.range 16).all (fun m => !(r.lineMask.testBit m) || s.conf.gates.any (fun g => g.port == 64 + m && owns g)))

/-- The on-die copy of the booted image's digest and directory (R350). -/
def imageDigest (b : Boot) : Octets :=
  slice 32 48 b.header ++ b.directory.flatMap (fun d => beBytes 2 d.type ++ beBytes 2 d.inst ++ beBytes 4 d.offset ++ beBytes 4 d.length ++ zeros 4)

/-- That copy is what slot 5 has signed (R350, R111). -/
def imageIntact (s : State) : Bool :=
  s.boot.image.isSome && (s.derivedKey 5).any (fun k => s.boot.imageMac == cmac k (imageDigest s.boot))

/-- Tests 2 to 5 and 7 of R111 that a reload and a release share, less test 6 which stands between: those before it. -/
def reloadAllowed (s : State) (x : Octets) : Bool :=
  let n := x.length - 96
  beAt 8 8 x == s.fixed.uid.toNat && beAt 16 4 x == s.boot.version && s.ownerSigned (x.take n) (slice n 96 x) && s.quartz.set &&
    decide (s.now ≤ beAt 32 8 x * nsPerSec) && decide ((s.part (reloadPart x)).reloadNumber < beAt 24 4 x)

/-- The status that a reload draws on arrival: none when it is accepted (R111). -/
def reloadStatus (s : State) (x : Octets) : Option Status × Conf :=
  let p := reloadPart x
  match (if reloadHeadOk 0x0D03 x then reloadConf x else none) with
  | none => (some .badDescriptor, .empty)
  | some n =>
    let st := (s.part p).state
    (if !(s.reloadFits p n) then some .badDescriptor
     else if s.boot.image.isSome && !(s.derivedKey 5).isSome then some .keyErased
     else if !(s.imageIntact && s.reloadAllowed x) then some .notPermitted
     else if !(crossOk (s.plannedConf.merge p n) true s.awaiting) then some .notPermitted
     else if st == .starting || st == .reloading || st == .scrubbing then some .notPermitted
     else if s.wantsKeys p n && s.keys.ent != .healthy then some .entropyFail
     else none, n)

/-- Of a reload that draws NOT_PERMITTED: what it breaks first is the headroom of a group (R90, test 6 of R111). -/
def reloadOverflows (s : State) (x : Octets) (n : Conf) : Bool :=
  s.imageIntact && s.reloadAllowed x && crossOverflow (s.plannedConf.merge (reloadPart x) n) true s.awaiting

/-- A reload is rejected for a group past its headroom: the reply is that of test 6, and the event carries OVERFLOW too (R90, R111, R478). -/
def rejectGroup (s : State) (st : Status) : State :=
  (s.raise 0x0302 none (oct (statusCode st) ++ leBytes 2 0x0D03 ++ overflowOctet true)).reply 0x0D03 st []

/-- The status that a release draws on arrival (R111, R112). -/
def releaseStatus (s : State) (x : Octets) : Option Status :=
  let p := reloadPart x
  let st := (s.part p).state
  if !(reloadHeadOk 0x0D04 x && x.length == 144 && beAt 40 4 x == 0) then some .badDescriptor
  else if s.boot.image.isSome && !(s.derivedKey 5).isSome then some .keyErased
  else if !(s.imageIntact && s.reloadAllowed x) then some .notPermitted
  else if !(crossOk (s.plannedConf.without p) true s.awaiting) then some .notPermitted
  else if st == .starting || st == .reloading || st == .scrubbing || st == .free then some .notPermitted
  else none

/-- A reload of a FREE partition is applied at once: it enters STARTING, and its bring-up begins (R43, R112). -/
def assign (s : State) (p : Nat) (n : Conf) : State :=
  let below := (List.range 64).map s.pagesBelow
  let s : State := { s with conf := s.conf.merge p n }
  let s := (s.setPState p .starting 1).bringUp p
  s.mirrorsAfter p (s.mirrored p) below

/-- What waited for a plane or the device to wake: the reload of a FREE partition that still passes its tests is applied, one that
fails is discarded with an event; a HALTED partition's is looked at again (R112, R426). -/
def applyAwake (s : State) : State :=
  (List.range 64).foldl (fun (s : State) (p : Nat) =>
    match (s.part p).reload with
    | none => s
    | some w =>
      if (s.part p).state == .halted then s.applyWaiting p
      else if (s.part p).state != .free then s
      else if !(s.awakeFor w.conf) then s.wakeFor w.conf
      else if crossOk (s.plannedConf.merge p w.conf) true s.awaiting then s.assign p w.conf
      else (s.updPart p (fun q => { q with reload := none })).raise 0x0302 none (oct (statusCode .notPermitted) ++ leBytes 2 0x0D03)) s

/-- An accepted reload or release: applied at once for a FREE or HALTED partition, else left for the step boundary, in place of
one that waits there (R112). -/
def takeReload (s : State) (p number : Nat) (w : WaitingReload) : State :=
  let st := (s.part p).state
  let s := s.updPart p (fun q => { q with reloadNumber := number })
  if st == .free && s.awakeFor w.conf then s.assign p w.conf
  else if st == .free then (s.updPart p (fun q => { q with reload := some w })).wakeFor w.conf
  else
    let s := s.updPart p (fun q => { q with reload := some w })
    if st == .halted then s.applyWaiting p else s

end State

/-! ### Meanings -/

/-- RELOAD (R111, R112, R460): the reply of an accepted one is sent now. -/
def execReload (record : Octets) (s : State) : Host.Outcome State Fault Refusal :=
  match s.reloadStatus record with
  | (some st, n) => .next (if st == .notPermitted && s.reloadOverflows record n then s.rejectGroup st else s.reject 0x0D03 st)
  | (none, n) => .next ((s.takeReload (reloadPart record) (beAt 24 4 record) ⟨false, n⟩).reply 0x0D03 .ok [])

/-- RELEASE (R111, R112, R460). -/
def execRelease (record : Octets) (s : State) : Host.Outcome State Fault Refusal :=
  match s.releaseStatus record with
  | some st => .next (s.reject 0x0D04 st)
  | none => .next ((s.takeReload (reloadPart record) (beAt 24 4 record) ⟨true, .empty⟩).reply 0x0D04 .ok [])

end Sys2Proof.Machine
end

