-- ==== Sys2Proof/Machine/Start.lean ====
section
/-! DEFINITION. The thirteen stages of a start (R19 to R21, R28, R67, R70, R76, R87, R99, R247, R276, R378 to R390, R395 to R397). -/

namespace Sys2Proof.Machine

/-- Number of the bundle from die s to die d (R446). -/
def bundleOf (a d : Nat) : Nat := 5 * a + d - (if d > a then 1 else 0)

/-- Least number of a failing test: passes of `n` units of a group numbered from `base`, given those that fail. -/
def passing (fails : List Nat) (base n : Nat) : Nat := (List.range n).countP (fun i => !(fails.contains (base + i)))

/-- Wavelengths in use of a bundle: up to 16 on each of its 8 waveguides (R19, R384). -/
def bundleUse (fails : List Nat) (b : Nat) : Nat := ((List.range 8).map (fun w => min 16 (passing fails ((8 * b + w) * 18) 18))).sum

/-- Spare wavelengths left of a bundle. -/
def bundleSpare (fails : List Nat) (b : Nat) : Nat := ((List.range 8).map (fun w => passing fails ((8 * b + w) * 18) 18 - 16)).sum

/-- Unit kinds that a die holds (R446). -/
def heldKinds (d : Nat) : List Nat := if d < 4 then [0, 1, 2, 5, 6] else [3, 4, 5, 6, 7]

/-- The candidates of a device: its committed slots (R97, R99). -/
def candsOf (d : Nat) (m : List Host.Cell) : List Candidate :=
  [0, 1].filterMap (fun k => (countingCommit m k).map (fun c => ⟨d, k, c.seq, c.length, c.digest⟩))

/-- Candidates in decreasing order of sequence, SLATE_A before SLATE_B at equal sequence (R99). -/
def orderCands (l : List Candidate) : List Candidate := sortBy (fun a b => decide (b.seq ≤ a.seq)) l

/-- Pairs of candidates of equal sequence with different digests: the one tried second. -/
def clashCands : List Candidate → List Candidate
  | a :: b :: r => (if a.seq == b.seq && a.digest != b.digest then [b] else []) ++ clashCands (b :: r)
  | _ => []

/-- Root PLL field of a SPARE_POLICY record, read on its own (R93, R382). -/
def pllField (x : Octets) : Nat := octetAt 9 x

/-- The sets of dies, as bit masks. -/
def dieSets : List (List Nat) := (List.range 64).map (fun m => (List.range 6).filter (fun d => m.testBit d))

namespace State

/-- A candidate is abandoned at a step (R99). -/
def abandonCand (s : State) (c : Candidate) (e : CheckFail) : State := s.slateEvent 2 c.dev c.slot e.step e.off e.overflow

/-- The octets of a candidate's slot. -/
def candOctets (s : State) (c : Candidate) (n : Nat) : Octets := memRead 0xFF (s.flashDev c.dev).cells (c.slot * slotSize) n

/-! ### What is in service -/

/-- Local port n is enabled and has passed the tests so far. -/
def localGood (s : State) (n : Nat) : Bool := ((s.conf.portOf n).map (·.enabled)).getD false && !(s.boot.localOff.contains n)

/-- Line port m is enabled and has passed the tests so far. -/
def lineGood (s : State) (m : Nat) : Bool := ((s.conf.lineOf m).map (·.enabled)).getD false && !(s.boot.lineOff.contains m)

/-- The bundle from die a to die d is enabled: at least 64 wavelengths (R19). -/
def bundleOn (s : State) (a d : Nat) : Bool := decide (64 ≤ s.boot.bundles.getD (bundleOf a d) 0)

/-- No die of a set is out of service, and every ordered pair of distinct ones has an enabled bundle (R383, R386). -/
def setLinked (s : State) (ds : List Nat) : Bool :=
  ds.all (fun a => !(s.boot.dieOff.contains a) && ds.all (fun d => a == d || s.bundleOn a d))

/-- Ports in service on the dies of a set. -/
def setPorts (s : State) (ds : List Nat) : Nat :=
  (List.range 64).countP (fun n => s.localGood n && ds.contains (n / 16)) + (List.range 16).countP (fun m => s.lineGood m && ds.contains (4 + m / 8))

/-- The first set is better than the second (R386). -/
def betterSet (s : State) (a b : List Nat) : Bool :=
  let pa := s.setPorts a
  let pb := s.setPorts b
  decide (b.length < a.length) || (a.length == b.length && (decide (pb < pa) || (pa == pb &&
    ((a.contains 4 && !(b.contains 4)) || (a.contains 4 == b.contains 4 && decide (a.sum < b.sum))))))

/-- The service set (R386). -/
def serviceSet (s : State) : List Nat :=
  (dieSets.filter s.setLinked).foldl (fun best x => if s.betterSet x best then x else best) []

/-- A local port goes out of service (R20, R383). -/
def dropLocal (s : State) (n : Nat) : State :=
  if s.boot.localOff.contains n then s
  else ({ s with boot := { s.boot with localOff := s.boot.localOff ++ [n] } } : State).retiredEvent 1 (n / 16) 3 n

/-- A line port goes out of service, with the cause of its RETIRED event (R28, R387). -/
def dropLine (s : State) (cause m : Nat) : State :=
  if s.boot.lineOff.contains m then s
  else ({ s with boot := { s.boot with lineOff := s.boot.lineOff ++ [m] } } : State).retiredEvent cause (4 + m / 8) 4 m

/-- A line port is disabled, and its reserve counts no more (R28, R247, R387). -/
def disableLine (s : State) (cause m : Nat) : State :=
  if s.boot.lineDisabled.contains m then s
  else ({ s with boot := { s.boot with
      lineOff := (s.boot.lineOff ++ [m]).eraseDups, lineDisabled := s.boot.lineDisabled ++ [m] } } : State).retiredEvent cause (4 + m / 8) 4 m

/-- A slice is retired (R28). -/
def dropSlice (s : State) (k : Nat) : State :=
  if (s.sliceOf k).retired then s else (s.updSlice k (fun x => { x with retired := true })).retiredEvent 1 k 2 k

/-- A Basalt stack is retired (R28). -/
def dropStack (s : State) (k : Nat) : State :=
  if s.boot.stackOff.contains k then s
  else ({ s with boot := { s.boot with stackOff := s.boot.stackOff ++ [k] } } : State).retiredEvent 1 (4 + k / 3) 5 k

/-- A die out of the service set: its ports, clusters, slice, cipher cores and stacks count as retired (R386). -/
def dropDie (s : State) (d : Nat) : State :=
  let s := s.retiredEvent 2 d 7 d
  if d < 4 then
    let s := s.updSlice d (fun x => { x with retired := true })
    let s := (List.range 4).foldl (fun s i => s.updCluster (4 * d + i) (fun k => { k with retired := true })) s
    { s with boot := { s.boot with localOff := (s.boot.localOff ++ (List.range 16).map (fun i => 16 * d + i)).eraseDups } }
  else
    let l := d - 4
    { s with boot := { s.boot with
      lineOff := (s.boot.lineOff ++ (List.range 8).map (fun i => 8 * l + i)).eraseDups,
      stackOff := (s.boot.stackOff ++ (List.range 3).map (fun i => 3 * l + i)).eraseDups,
      cipher := s.boot.cipher.set l 0 } }

/-- The spares left of a kind on each die that holds it. -/
def noteSpares (s : State) (kind : Nat) (f : Nat → Nat) : State :=
  ((List.range 6).filter (fun d => (heldKinds d).contains kind)).foldl (fun s d => s.setSpares d kind (f d)) s

/-- The unit that data service misses, as SERVICE codes it (R397, R478). -/
def serviceLack (s : State) : Option Nat :=
  let planes := (List.range 4).filter (fun d => s.boot.dies.contains d && (List.range 16).any (fun i => s.localGood (16 * d + i)))
  let lines := [0, 1].filter (fun l => s.boot.dies.contains (4 + l) && (List.range 8).any (fun i => s.lineGood (8 * l + i)) &&
    (List.range 3).any (fun i => !(s.boot.stackOff.contains (3 * l + i))) && s.boot.cipher.getD l 0 != 0)
  if s.boot.lasers.length < 4 then some 4
  else if planes.isEmpty then some 5
  else if lines.isEmpty then some 6
  else if planes.any (fun d => lines.any (fun l => s.bundleOn d (4 + l) && s.bundleOn (4 + l) d)) then none
  else some 7

/-! ### Visibility service (R396, R397) -/

/-- Stage 4's work in the keep island: slot 4 and the check of the retention record under it, start count, derived keys, and the DRBG
from the entropy given (R350, R353, R379, R382). -/
def deriveKeys (s : State) (entropy : Option Octets) : State :=
  let s := (s.hold 4 (deriveSlot s.fixed 0 4)).checkRetention
  let s := s.noteRetention (fun r => { r with starts := (r.starts + 1) % 2 ^ 64, pll := s.boot.pllLocked.or r.pll })
  let s := s.deriveAtStart.armReseed
  match entropy with
  | some e => if s.keys.ent == .healthy then s.seed e else s
  | none => s

/-- SERVICE event, and the cause that the status block keeps (R445, R478). -/
def serviceEvent (s : State) (cause kind : Nat) (p : Option Nat) : State :=
  ({ s with boot := { s.boot with serviceCause := kind } } : State).raise 0x0206 p (oct cause ++ oct kind)

/-- The start stops in visibility service: what stage 4 does in the keep island is done where that stage has not run, the servo starts
without a TIME record where no image is booted, and partitions that a warm reset found assigned are scrubbed (R43, R107, R367, R396,
R397). -/
def enterVisibility (s : State) (kind : Nat) : State :=
  let s := if s.keys.derived.isEmpty then
      let f := s.freeOctets 96
      s.workingDevs.foldl scanLog (f.2.deriveKeys (some f.1))
    else s
  let s := if s.boot.image.isNone then s.startQuartz else s
  let s : State := { s with boot := { s.boot with phase := .visibility, bootrom := s.boot.image.isNone } }
  let s := s.serviceEvent 1 kind none
  ((List.range 64).filter (fun p => (s.part p).state != .free && (s.part p).state != .scrubbing)).foldl (fun s p => s.enterScrub p 10) s

/-! ### Stages -/

/-- Stage 1: the entropy start-up test (R352); it fails at the limit. A source that a reset found FAILED leaves that state at a retest
alone (R354). -/
def stage1 (s : State) (r : StageResult) (late : Bool) : State :=
  if !late && healthOk r.samples then s
  else if s.keys.ent == .failed then s
  else
    let s := if late then s else s.bump (if rctOk none r.samples then .entApt else .entRct)
    (({ s with keys := { s.keys with ent := .failed, retestFails := 0 } } : State).raise 0x0802 none (oct 1 ++ oct 1)).armReseed

/-- Stage 2: Slate discovery, candidates in order, and steps 2 to 5 of R99 on each header (R76, R99, R381). -/
def stage2 (s : State) (r : StageResult) (late : Bool) : State :=
  let s := [(0, r.flashA, r.suspendA), (1, r.flashB, r.suspendB)].foldl (fun s x =>
    let s := s.updFlashDev x.1 (fun f => { f with works := x.2.1, suspends := x.2.2 })
    if x.2.1 then s else s.slateEvent 1 x.1 0 0 0) s
  if late then s
  else
    let all := orderCands (s.workingDevs.flatMap (fun d => candsOf d (s.flashDev d).cells))
    let s := (clashCands all).foldl (fun s c => s.slateEvent 3 c.dev c.slot 0 0) s
    let tried := all.map (fun c => (c, checkHeader s.activeOwner s.fixed.uid.toNat (s.candOctets c 320)))
    let s := tried.foldl (fun s x => match x.2 with
      | .error e => s.abandonCand x.1 e
      | .ok _ => s) s
    { s with boot := { s.boot with cands := (tried.filter (fun x => x.2.toOption.isSome)).map Prod.fst } }

/-- The root PLL field of the SPARE_POLICY record of the highest candidate, read before validation (R382). -/
def pllChoice (s : State) : Nat :=
  match s.boot.cands.head? with
  | none => 0
  | some c =>
    let x := s.candOctets c c.length
    match ((List.range (slateHeader x).count).map (dirEntry x)).find? (fun d => d.type == 0x010C) with
    | some d => pllField (slice d.offset d.length x)
    | none => 0

/-- The root PLLs in the order in which they are tried (R382). -/
def pllOrder (s : State) : List Nat :=
  let first := match s.pllChoice with
    | 1 => 0
    | 2 => 1
    | _ => s.boot.retention.pll.getD 0
  [first, 1 - first]

/-- The first PLL of an order that is on and passes serves; those tried before it have failed, and stay off until the next start (R382). -/
def lockPll (s : State) (order : List Nat) (good : Nat → Bool) : State × Bool :=
  let off := fun (i : Nat) => s.boot.pllFailed.getD i false
  match order.find? (fun k => !(off k) && good k) with
  | some k =>
    let fails := [0, 1].map (fun i => off i || (i != k && (order.takeWhile (· != k)).contains i))
    ({ s with boot := { s.boot with pllSel := k, pllFailed := fails, pllLocked := some k } }, true)
  | none => ({ s with boot := { s.boot with pllFailed := [true, true] } }, false)

/-- Stage 4: the retention record is checked, the start counted, keys derived, the DRBG instantiated, and the critical logs read
(R107, R350, R353). -/
def stage4 (s : State) (r : StageResult) (late : Bool) : State :=
  let s := if late || s.keys.ent != .healthy then s
    else if !(rctOk none r.samples) then s.entropyFail false
    else if !(aptOk r.samples.length r.samples) then s.entropyFail true
    else s
  let s := s.deriveKeys (if late then none else some (packSamples r.samples))
  s.workingDevs.foldl scanLog s

/-- The records of the booted image take effect: the servo's start, PPS_OUT, maintenance windows, shapers (R276, R367). -/
def takeConf (s : State) (c : Conf) : State :=
  ({ s with conf := c } : State).startQuartz.armPpsOut.armMaintenance.resetBuckets

/-- A candidate that passes every step is booted: slot 5 is derived over it, and a commit copy that is missing is written (R104,
R350, R381). -/
def bootImage (s : State) (c : Candidate) (conf : Conf) (ds : List DirEntry) : State :=
  let h := s.candOctets c 320
  let k := deriveSlot s.fixed s.boot.retention.starts 5
  let b := { s.boot with image := some c, header := h, directory := ds, version := (slateHeader h).version }
  let s : State := { s with boot := { b with imageMac := cmac k (imageDigest b) } }
  ((s.hold 5 k).takeConf conf).repairCommit c.dev ⟨c.slot, c.seq, c.length, c.digest⟩

/-- Full reads of the candidates, in order, until one passes steps 1 and 6 to 10 of R99 (R381). -/
def validate (s : State) : List Candidate → State
  | [] => s
  | c :: r =>
    match checkImage s.activeOwner s.fixed.uid.toNat s.fixed.vendorKeyHash c.digest (s.candOctets c c.length) with
    | .ok x => s.bootImage c x.1 x.2
    | .error e => validate (s.abandonCand c e) r

/-- Stage 5: memory self-test and repair; the image is validated meanwhile. A die whose switch table, context cache or cipher queue
outruns its redundancy leaves service (R28, R381, R383, log entry 30). -/
def stage5 (s : State) (r : StageResult) : State :=
  let s := s.validate s.boot.cands
  let s : State := { s with boot := { s.boot with repairs := r.sramRepairs, dieOff := r.sramDies } }
  let s := r.sramClusters.foldl retireCluster s
  let s := r.sramSlices.foldl dropSlice s
  let s := r.sramLocal.foldl dropLocal s
  let s := r.sramLine.foldl (fun s m => s.dropLine 1 m) s
  s.noteSpares 5 (fun d => r.sramSpares.getD d 0)

/-- The tests of lasers, wavelengths and serdes lanes, and the service set (R19 to R21, R384 to R386, R472). -/
def testPaths (s : State) (r : StageResult) : State :=
  let good := (List.range 5).filter (fun i => (r.lasers[i]?).any (fun v => decide (200 ≤ v) && decide (v ≤ 240)))
  let wave := (r.lambdaErrors.filter (fun x => decide (100 ≤ x.2))).map Prod.fst
  let lw := (r.localErrors.filter (fun x => decide (100 ≤ x.2))).map Prod.fst
  let lanes := (r.serdesErrors.filter (fun x => decide (10 ≤ x.2))).map Prod.fst
  let s : State := { s with boot := { s.boot with
    lasers := good.take 4, bundles := (List.range 30).map (bundleUse wave), cipher := [32, 32] } }
  let s := ((List.range 6).flatMap (fun a => ((List.range 6).filter (· != a)).map (fun d => (a, d)))).foldl (fun s x =>
    if s.bundleOn x.1 x.2 then s else s.retiredEvent 1 x.1 6 (bundleOf x.1 x.2)) s
  let s := ((List.range 64).filter (fun n => passing lw (18 * n) 9 < 8 || passing lw (18 * n + 9) 9 < 8)).foldl dropLocal s
  let s := ((List.range 16).filter (fun m => s.lineGood m && decide (passing lanes (9 * m) 9 < 8))).foldl (fun s m => s.disableLine 1 m) s
  let s := s.noteSpares 6 (fun d => ((List.range 5).map (fun i => bundleSpare wave (5 * d + i))).sum +
    (if d < 4 then ((List.range 32).map (fun i => passing lw (9 * (32 * d + i)) 9 - 8)).sum else 0))
  let s := s.noteSpares 7 (fun d => ((List.range 8).map (fun i => passing lanes (9 * (8 * (d - 4) + i)) 9 - 8)).sum)
  let ds := s.serviceSet
  let s : State := { s with boot := { s.boot with dies := ds } }
  ((List.range 6).filter (fun d => !(ds.contains d))).foldl dropDie s

/-- Octets of Basalt on a line die where its pool region may lie: stacks in service, outside system regions and windows (R247,
R387). -/
def poolRoom (s : State) (l : Nat) : Nat :=
  let ks := ((List.range 3).map (fun i => 3 * l + i)).filter (fun k => !(s.boot.stackOff.contains k))
  let ws := s.conf.windows.filter (fun w => w.kind == 3)
  (ks.map (fun k => ((uncovered ws (k * stackSize, (k + 1) * stackSize - systemRegion)).map (fun q => q.2 - q.1)).sum)).sum

/-- Octets of the pool region of a line die: the reserves of its enabled line ports, less those that this start has disabled (R247,
R387). A port that is only retired keeps its reserve. -/
def poolNeed (s : State) (l : Nat) : Nat :=
  (((s.conf.lines.filter (fun x => x.enabled && !(s.boot.lineDisabled.contains x.port) && lineDie x.port == l)).map (·.reserve)).sum) * 2 ^ 20

/-- Line ports of a die are disabled in descending order until the pool region fits (R387). -/
def fitPools (s : State) (l : Nat) : Nat → State
  | 0 => s
  | n + 1 =>
    let m := 8 * l + n
    if s.poolRoom l < s.poolNeed l && (s.conf.lineOf m).any (·.enabled) && !(s.boot.lineDisabled.contains m) then fitPools (s.disableLine 3 m) l n
    else fitPools s l n

/-- Buffers of pool k of a die, from the reserves in service (R246, R247). -/
def poolCount (s : State) (d k : Nat) : Nat :=
  if d < 4 then [16384, 4096, 2048, 1024].getD k 0
  else
    let n := s.poolNeed (d - 4)
    match k with
    | 0 => n / 4 / 16384
    | 1 => n / 4 / 65536
    | 2 => n / 2 / 1048576
    | _ => 0

/-- Every pool with all its buffers free (R246, R247). -/
def layPools (s : State) : State :=
  { s with sw := { s.sw with pools := (List.range 24).map (fun i =>
      let n := s.poolCount (i / 4) (i % 4)
      (⟨(poolBufSizes (i / 4)).getD (i % 4) 0, n, [], 0, [], n⟩ : Pool)) } }

/-- The stacks' training and test, their zeroing, and the pool regions (R387). -/
def testStacks (s : State) (r : StageResult) : State :=
  let used := fun (k : Nat) => passing r.hbmFails (17 * k) 17
  let s := ((List.range 6).filter (fun k => s.boot.dies.contains (4 + k / 3) && decide (used k < 16))).foldl dropStack s
  let s := s.noteSpares 4 (fun d => ((List.range 3).map (fun i => used (3 * (d - 4) + i) - 16)).sum)
  let s : State := { s with basalt := [] }
  ((s.fitPools 0 8).fitPools 1 8).layPools

/-- The physical cipher cores' test: logical cores in service, and spares left (R28, R388). -/
def testCipher (s : State) (r : StageResult) : State :=
  let n := fun (l : Nat) => if s.boot.dies.contains (4 + l) then passing r.cipherFails (36 * l) 36 else 0
  let s : State := { s with boot := { s.boot with cipher := [min 32 (n 0), min 32 (n 1)] } }
  s.noteSpares 3 (fun d => n (d - 4) - 32)

/-- The challenge test of the cipher cores: a DRBG value for each of 72, or an event where it is skipped (R388). -/
def challengeTest (s : State) : State :=
  if s.keys.ent == .healthy then (List.range 72).foldl (fun s _ => ((s.drbg 16).map Prod.snd).getD s) s
  else s.raise 0x0802 none (oct 2 ++ oct (match s.keys.ent with
    | .healthy => 0
    | .failed => 1
    | .latched => 2))

/-- Stage 8: cluster, Carillon and cipher self-test (R388). -/
def stage8 (s : State) (r : StageResult) : State :=
  let es := fun (c : Nat) => passing r.engineFails (5 * c) 5
  let ks := fun (c : Nat) => passing r.coreFails (18 * c) 18
  let ls := fun (g : Nat) => passing r.adderFails (17 * g) 17
  let s := ((List.range 16).filter (fun c => es c < 4 || ks c < 16 || r.clusterFails.contains c)).foldl retireCluster s
  let s := ((List.range 4).filter (fun k => (List.range 64).any (fun g => decide (ls (64 * k + g) < 16)))).foldl dropSlice s
  let s := (List.range 4).foldl (fun s k =>
    s.updSlice k (fun x => { x with spareUsed := (List.range 64).filter (fun g => decide (ls (64 * k + g) < 17)) })) s
  let s : State := { s with boot := { s.boot with
    engineSpares := (List.range 16).map (fun c => es c - 4), coreSpares := (List.range 16).map (fun c => ks c - 16) } }
  let s := s.noteSpares 0 (fun d => ((List.range 4).map (fun i => es (4 * d + i) - 4)).sum)
  let s := s.noteSpares 1 (fun d => ((List.range 4).map (fun i => ks (4 * d + i) - 16)).sum)
  let s := s.noteSpares 2 (fun d => ((List.range 64).map (fun g => ls (64 * d + g) - 16)).sum)
  (s.testCipher r).challengeTest

/-- A partition uses programs, projection or TENSOR_LOAD to scratch, which a SCRATCH window admits: it needs a cluster (R397). -/
def needsCluster (s : State) (r : PartRec) : Bool :=
  r.tenantPrograms || s.conf.windows.any (fun w => w.part == r.part && w.kind == 2) || s.conf.progs.any (fun g => g.part == r.part) ||
    s.conf.groups.any (fun g => g.part == r.part && g.group.proj != 0xFFFF)

/-- Line transmitters are brought up with idle fill, each with a line key where it can have one, and its accepted trace of zeros is
compared with the expected one (R280, R290, R342, R379). -/
def openLines (s : State) : State :=
  let s := (List.range 16).foldl (fun s m => s.updLine m (fun x => { x with inService := s.lineGood m })) s
  (s.conf.lines.filter (fun r => (s.line r.port).inService)).foldl (fun s r => (s.checkTrace r.port).lineActivate r.port) s

/-- Local ports that have passed every test come into service, and partitions that miss the clusters they need are told (R397). -/
def openPorts (s : State) : State :=
  let s := (List.range 64).foldl (fun s n => s.updPort n (fun x => { x with inService := s.localGood n })) s
  (s.conf.parts.filter (fun r => s.needsCluster r &&
    !((List.range 16).any (fun c => r.hasCluster c && !(s.cluster c).retired)))).foldl (fun s r => s.serviceEvent 1 8 (some r.part)) s

/-- Program images of the partitions of one parity above what the store of their line die holds: taken from the highest partition
down until the store fits (R87). -/
def overStore (s : State) (die : Nat) : List Nat → List Nat
  | [] => []
  | p :: r =>
    let used := 196608 * s.progs.countP (fun g => g.part % 2 == die && ((p :: r).contains g.part))
    if s.storeRoom die < used then p :: overStore s die r else []

/-- Stage 9: partitions that the image assigns enter STARTING and are brought up; those that a warm reset leaves unassigned are
scrubbed (R43, R389). A partition taken out for want of room leaves no image in the store (R87). -/
def stage9 (s : State) (late : Bool) : State :=
  let ps := sortBy (fun a b => decide (a ≤ b)) (s.conf.parts.map (·.part))
  let s := ((List.range 64).filter (fun p => !(ps.contains p) && (s.part p).state != .free && (s.part p).state != .scrubbing)).foldl
    (fun s p => s.enterScrub p 10) s
  let s := ps.foldl (fun s p => (s.setPState p .starting (if (s.part p).state == .free then 1 else 10)).bringUp p) s
  let excess := [0, 1].flatMap (fun d => s.overStore d ((ps.filter (fun p => p % 2 == d)).reverse))
  let s := excess.foldl (fun s p => s.setProgs p []) s
  { s with boot := { s.boot with halted := ps.filter (fun p => late || s.bringUpFails p || excess.contains p) } }

/-- Stage 10: key slots installed; a port whose two traces are equal is told (R340, R343, R344, R389). -/
def stage10 (s : State) (late : Bool) : State :=
  let s := if late then s else (s.conf.parts.map (·.part)).foldl (fun s p => (s.installSlots p).getD s) s
  (s.conf.lines.filter (fun l => l.enabled && l.transmitted == l.expected)).foldl
    (fun s l => s.raise 0x0801 (some 0) (oct 4 ++ leBytes 2 l.keySlot)) s

/-- Some slot of a partition waits for entropy, or for a DRBG that stage 4 left out (R355, R379). -/
def keysWait (s : State) (p : Nat) : Bool :=
  (s.keys.ent != .healthy || s.keys.drbg.isNone) && (s.conf.slotsOf p).any (fun n => (((s.keySlot n).map KeySlot.state).getD .empty) == SlotState.empty)

/-- Ready for one partition (R43, R355, R389). -/
def readyPart (s : State) (p : Nat) : State :=
  if (s.part p).state != .starting then s
  else if s.boot.halted.contains p then s.setPState p .halted 8
  else if s.keysWait p then (if s.keys.ent == .latched then s.setPState p .halted 9 else s)
  else (s.setPState p .active 2).beginMirror p

/-- Ready (R390): partitions leave STARTING together, and the background copy may begin. -/
def ready (s : State) : State :=
  let s : State := { s with boot := { s.boot with phase := .ready } }
  let s := (sortBy (fun a b => decide (a ≤ b)) (s.conf.parts.map (·.part))).foldl readyPart s
  (s.raise 0x0201 none (oct 0 ++ oct 13 ++ leBytes 8 s.boot.retention.starts)).hand .backgroundCopy

/-- The start goes on to stage n. -/
def toStage (s : State) (n : Nat) : State := { s with boot := { s.boot with phase := .stage n } }

/-- The start goes on, or stops for what data service misses (R397). -/
def goOn (s : State) (n : Nat) : State := match s.serviceLack with
  | some k => s.enterVisibility k
  | none => s.toStage n

/-- Stage n ends with its results, at its limit when `late` (R379). -/
def endStage (s : State) (n : Nat) (r : StageResult) (late : Bool) : State :=
  match n with
  | 1 => (s.stage1 r late).toStage 2
  | 2 =>
    let s := s.stage2 r late
    if s.boot.cands.isEmpty then s.enterVisibility (if s.workingDevs.isEmpty then 1 else 2) else s.toStage 3
  | 3 =>
    let x := s.lockPll s.pllOrder (fun k => !late && (if k == 0 then r.pll0 else r.pll1))
    if x.2 then x.1.toStage 4 else x.1.enterVisibility 3
  | 4 => (s.stage4 r late).toStage 5
  | 5 =>
    let s := s.stage5 r
    if s.boot.image.isSome then s.toStage 6 else s.enterVisibility 2
  | 6 => (s.testPaths r).goOn 7
  | 7 => (s.testStacks r).goOn 8
  | 8 =>
    let s := (s.stage8 r).goOn 9
    if s.boot.phase == .stage 9 then s.openPorts else s
  | 9 => (s.stage9 late).toStage 10
  | 10 => (s.stage10 late).toStage 11
  | 11 => s.openLines.toStage 12
  | _ => s.ready

/-- The stage in progress as the status block and the heartbeat report it (R379, R393, R396, R445). -/
def stageCode (s : State) : Nat := match s.boot.phase with
  | .stage n => n
  | .ready => 13
  | .visibility => 0x0F
  | .held | .waiting => 0x0E

end State

/-! ### Meanings -/

/-- START_BEGIN (R378): the conditions have held for 1 ms; every counter is zeroed, and stage 1 begins (R379, R433). -/
def execStartBegin (s : State) : Host.Outcome State Fault Refusal :=
  if (s.boot.phase == .waiting || s.boot.phase == .held) && s.boot.resetN && s.boot.refclk then
    let b := { s.boot with phase := .stage 1, keepGood := true, badRails := [], pwrgood := true }
    let s : State := { s with boot := b, ctrs := [] }
    let kind := match b.kind with
      | .powerOn => 1
      | .cold => 2
      | .warm => 3
    .next (s.raise 0x0202 none (State.oct b.trigger ++ State.oct kind))
  else .next s

/-- START_STAGE_END (R379). -/
def execStartStageEnd (r : StageResult) (s : State) : Host.Outcome State Fault Refusal :=
  match s.boot.phase with
  | .stage n => .next (s.endStage n r false)
  | _ => .next s

/-- START_STAGE_LIMIT (R379). -/
def execStartStageLimit (r : StageResult) (s : State) : Host.Outcome State Fault Refusal :=
  match s.boot.phase with
  | .stage n => .next (s.endStage n r true)
  | _ => .next s

end Sys2Proof.Machine
end

