-- ==== Sys2Proof/Machine/Reset.lean ====
section
/-! DEFINITION. Resets and what is held over them, clock loss, and the reports of a held device (R8, R32, R33, R351, R362, R391 to
R395, R418, R469, R470). -/

namespace Sys2Proof.Machine

/-- Quartz over a warm or cold reset: time, addend, SET and OSC are kept (R361, R395, R449). -/
def quartzKept (q : Quartz) : Quartz :=
  { Quartz.reset with secs := q.secs, ns := q.ns, frac := q.frac, addend := q.addend, set := q.set, osc := q.osc }

/-- The entropy source over a warm or cold reset: LATCHED ends, and FAILED stays with its retests (R354, R395). -/
def entKept (k : KeyStore) : KeyStore :=
  if k.ent == .failed then { KeyStore.reset with ent := .failed, retestFails := k.retestFails } else .reset

/-- Counters over a reset, before the start that zeroes them all: those of the Quartz block take their Reset value at once (R8, R449). -/
def ctrsKept (l : List (Ctr × Nat)) : List (Ctr × Nat) := l.filter (fun c => c.1 != .ppsEdges && c.1 != .ppsHoldover)

/-- A line port as a reset leaves it: bins start anew, incomplete (R299). -/
def lineAfterReset (secs : Nat) : LinePortState :=
  { LinePortState.reset with pm := { PmState.reset with bin15 := PmBin.fresh 900 secs true, bin24 := PmBin.fresh 86400 secs true } }

/-- Flash over a reset: what was being written stays torn, and the update is no more (R103, R104, R108). -/
def flashKept (f : Flash) : Flash :=
  { f with devs := f.devs.map (fun d => { d with works := false, rest := none, erasing := false }), update := none }

namespace State

/-- Knell (R351): bulk messages and work bound to every key slot end, then every key is gone. -/
def knell (s : State) (trigger : Nat) : State :=
  ((s.keys.slots.map KeySlot.slot).foldl eraseSlot (s.abortJobs (fun _ => true))).knellKeys trigger

/-- The event of an update that a reset ends (R103). -/
def updateLost (s : State) : State :=
  match s.flash.update with
  | some u =>
    if u.background then s
    else if u.stage == .commit1 || u.stage == .copying then s.secondLost u
    else s.slateEvent 5 u.dev u.slot 0 0
  | none => s

/-- Every condition of R378 that the device can see holds. -/
def startable (s : State) : Bool := s.boot.resetN && s.boot.refclk && s.boot.pwrgood && s.boot.badRails.isEmpty

/-- What a reset leaves: the keep island's Quartz, retention record and event ring, into which the queue has drained (R456), fuses, flash,
and each partition's state where the reset is warm; all else as at power-up (R8, R43, R395). -/
def afterReset (s : State) (warm : Bool) (kind : ResetKind) (trigger : Nat) : State :=
  let b : Boot := { Boot.reset with
    phase := if s.startable then .waiting else .held, keepGood := s.boot.keepGood, badRails := s.boot.badRails,
    pwrgood := s.boot.pwrgood, refclk := s.boot.refclk, resetN := s.boot.resetN, kind := kind, trigger := trigger,
    retention := s.boot.retention }
  let q := if s.keys.ent == .failed then
      { quartzKept s.quartz with comparators := (Quartz.reset.comparators.set 1 (s.quartz.comparators.getD 1 none)) }
    else quartzKept s.quartz
  { State.reset with
    pending := s.pending, freeCtr := s.freeCtr, cycle := s.cycle, out := s.out, quartz := q, boot := b,
    flash := flashKept s.flash, fixed := s.fixed, owner := s.owner, jtag := s.jtag, ctrs := ctrsKept s.ctrs,
    events := s.drainAll.events, keys := entKept s.keys,
    lines := Vector.replicate 16 (lineAfterReset s.quartz.secs),
    parts := s.parts.map (fun q => { PartState.reset with state := if warm then q.state else .free }),
    tocsin := { State.reset.tocsin with links := s.tocsin.links } }

/-- The device has been held in reset, or waits, since VDD_KEEP rose. -/
def neverStarted (s : State) : Bool := s.boot.kind == .powerOn && (s.boot.phase == .waiting || s.boot.phase == .held)

/-- A warm reset (R391). -/
def warmReset (s : State) (trigger : Nat) : State := s.updateLost.afterReset true .warm trigger

/-- A cold reset, with Knell at once (R391, R394). One that falls before the first start leaves it a power-on start (R378). -/
def coldReset (s : State) (trigger : Nat) : State :=
  if s.neverStarted then { s with boot := { s.boot with phase := if s.startable then .waiting else .held } }
  else (s.updateLost.knellKeys 1).afterReset false .cold trigger

/-- No die but the keep island is running. -/
def isHeld (s : State) : Bool := s.boot.phase == .waiting || s.boot.phase == .held

/-- The end of the hold: a start may follow once the conditions have held for 1 ms (R378, R392). -/
def endHold (s : State) : State :=
  if s.isHeld then { s with boot := { s.boot with phase := if s.startable then .waiting else .held } } else s

/-! ### Heartbeats (R418) -/

/-- The body of a HEARTBEAT or HELD frame (R418). -/
def heartbeatBody (s : State) (port : Nat) : Octets :=
  let answered := s.partnerAnswer.any (fun t => decide (s.now ≤ t + nsPerSec))
  let back := s.parts.toList.any (fun q => q.mirror == .heldBack || q.mirror == .lagging)
  let fl := s.quartz.set.toNat + 2 * s.boot.bootrom.toNat + 4 * answered.toNat + 8 * back.toNat
  uidOctets s.fixed ++ beBytes 8 s.quartz.secs ++ beBytes 4 s.quartz.ns ++ oct s.stageCode ++ oct fl ++ oct port ++ zeros 1 ++
    beBytes 4 s.events.writeSeq ++ beBytes 4 s.boot.fwRestarts

/-- A report on each linked MGMT port; its sequence counts that port's reports (R418). -/
def beat (s : State) (kind : Nat) : State :=
  [0, 1].foldl (fun (s : State) (n : Nat) =>
    if s.tocsin.links.getD n false then
      let q := s.tocsin.beats.getD n 0 + 1
      let s : State := { s with tocsin := { s.tocsin with beats := s.tocsin.beats.set n q } }
      s.sendTocsin n (tocsinBytes kind 0 q (s.heartbeatBody n))
    else s) s

/-- CLOCK event (R440, R478). -/
def clockEvent (s : State) (cause pll : Nat) : State := s.raise 0x0101 none (oct cause ++ oct pll)

end State

/-! ### Meanings -/

/-- RESET_ENTER (R392): the 100th low sample of RESET_N. -/
def execResetEnter (s : State) : Host.Outcome State Fault Refusal :=
  let s : State := { s with boot := { s.boot with resetN := false } }
  .next (if s.isHeld then s.endHold else s.warmReset 2)

/-- RESET_COLD_ESCALATE (R392): the 800,000,000th low sample; Knell runs and a warm reset becomes cold. -/
def execResetColdEscalate (s : State) : Host.Outcome State Fault Refusal :=
  if s.isHeld && !s.boot.resetN && s.boot.kind == .warm then .next ((s.knellKeys 1).afterReset false .cold s.boot.trigger) else .next s

/-- RESET_N_RISE (R392). -/
def execResetNRise (s : State) : Host.Outcome State Fault Refusal :=
  let s : State := { s with boot := { s.boot with resetN := true } }
  .next s.endHold

/-- PWRGOOD_FALL (R394). -/
def execPwrgoodFall (s : State) : Host.Outcome State Fault Refusal :=
  let s : State := { s with boot := { s.boot with pwrgood := false } }
  .next (s.coldReset 4)

/-- RAIL_FAULT (R469): as PWRGOOD falling, while PWRGOOD is high. -/
def execRailFault (rail : Rail) (s : State) : Host.Outcome State Fault Refusal :=
  if s.boot.pwrgood then
    let s : State := { s with boot := { s.boot with badRails := (s.boot.badRails ++ [rail]).eraseDups } }
    .next (s.coldReset 5)
  else .next s

/-- KEEP_POWER_LOSS (R361, R395, R470): what the keep island holds is lost; fuses and flash remain. -/
def execKeepPowerLoss (s : State) : Host.Outcome State Fault Refusal :=
  let f : Flash := { State.reset.flash with devs := (flashKept s.flash).devs }
  .next { State.reset with
    pending := s.pending, freeCtr := s.freeCtr, out := s.out, flash := f, fixed := s.fixed, owner := s.owner, jtag := s.jtag,
    boot := { Boot.reset with phase := .held, keepGood := false, refclk := s.boot.refclk, resetN := s.boot.resetN },
    tocsin := { State.reset.tocsin with links := s.tocsin.links } }

/-- HELD_REPORT (R393, R396, R418): in reset, and in the boot-ROM program with no Slate device. -/
def execHeldReport (s : State) : Host.Outcome State Fault Refusal :=
  .next (if s.isHeld || (s.boot.phase == .visibility && s.workingDevs.isEmpty) then s.beat 0x02 else s)

/-- PLL_LOCK_LOSS (R32). -/
def execPllLockLoss (s : State) : Host.Outcome State Fault Refusal :=
  .next (if s.isHeld then s else (s.clockEvent 1 s.boot.pllSel).warmReset 6)

/-- REFCLK_LOSS (R33, R362): every die but the keep island is held, and Quartz counts on the internal oscillator. -/
def execRefclkLoss (s : State) : Host.Outcome State Fault Refusal :=
  if s.boot.refclk then
    let s : State := { s with boot := { s.boot with refclk := false }, quartz := { s.quartz with osc := true } }
    let s := (s.clockEvent 2 0).clockEvent 4 0
    .next (if s.isHeld then s.endHold else s.warmReset 7)
  else .next s

/-- REFCLK_RETURN (R33, R362). -/
def execRefclkReturn (s : State) : Host.Outcome State Fault Refusal :=
  if s.boot.refclk then .next s
  else
    let s : State := { s with boot := { s.boot with refclk := true } }
    .next ((s.clockEvent 3 0).clockEvent 5 0)

/-- REFCLK_RETURN_WARM_RESET (R33): the dies have been held since the clock failed; the reset that the start follows is warm, unless
it was cold or a power-on already. -/
def execRefclkReturnWarmReset (s : State) : Host.Outcome State Fault Refusal :=
  .next (if !s.boot.refclk then s else if s.isHeld then s.endHold else s.warmReset 7)

/-- RESET_WARM (R391, R460): the reply goes first. -/
def execResetWarm (s : State) : Host.Outcome State Fault Refusal := .next ((s.reply 0x0D13 .ok []).warmReset 3)

/-- RESET_COLD (R391, R392, R460): Knell runs at once. -/
def execResetCold (s : State) : Host.Outcome State Fault Refusal := .next ((s.reply 0x0D13 .ok []).coldReset 3)

end Sys2Proof.Machine
end

