-- ==== Sys2Proof/Machine/Owner.lean ====
section
/-! DEFINITION. Owner binding and transfer, debug unlock, and the JTAG port (R67 to R73). -/

namespace Sys2Proof.Machine

/-- The form of an owner bind record (R68). -/
def ownerBindForm (x : Octets) : Bool :=
  x.length == 308 && beAt 0 2 x == 0x0D02 && beAt 2 2 x == 308 && decide (octetAt 12 x < 2) && zerosAt 13 3 x && zerosAt 113 3 x

/-- The form of a debug unlock token (R73). -/
def debugForm (x : Octets) : Bool :=
  x.length == 136 && beAt 0 2 x == 0x0D01 && beAt 2 2 x == 136 && decide (1 ≤ octetAt 28 x) && decide (octetAt 28 x ≤ 3) &&
    zerosAt 29 3 x && zerosAt 32 2 x

namespace State

/-- Fuse slot k. -/
def ownerSlot (s : State) (k : Nat) : OwnerSlot := s.owner.getD k .void

/-- The named slot is the next blank one: slot 0, or slot 1 behind a used slot 0 (R68, R70). -/
def nextBlank (s : State) (k : Nat) : Bool := s.ownerSlot k == .blank && (k == 0 || s.ownerSlot 0 != .blank)

/-- Every partition is scrubbed (R59, R69, R72). -/
def scrubAll (s : State) : State :=
  let ps := (List.range 64).filter (fun p => (s.part p).state != .free)
  let s := (ps.filter (fun p => (s.part p).state != .scrubbing)).foldl (fun s p => s.enterScrub p 5) s
  ps.foldl finishScrub s

/-- The new owner's hash is fused into a slot (R69). -/
def fuseOwner (s : State) (k : Nat) (key : Octets) (cause : Nat) : State :=
  let s : State := { s with owner := s.owner.set k (.valid (BitVec.ofNat 384 (beNat (sha384 key)))) }
  s.raise 0x0B02 none (oct cause ++ oct k)

/-- What an owner bind record draws: the status that rejects it, or whether it is a transfer (R68). -/
def bindCase (s : State) (x : Octets) : Except Status Bool :=
  let k := octetAt 12 x
  let key := slice 16 97 x
  let transfer := k == 1 && (match s.ownerSlot 0 with
    | .valid _ => true
    | _ => false)
  if !ownerBindForm x then .error .badDescriptor
  else if !transfer && !(zerosAt 212 96 x) then .error .badDescriptor
  else if !(s.namesUs x && s.nextBlank k && ecdsaVerify key (x.take 116) (slice 116 96 x)) then .error .notPermitted
  else if transfer && !(s.ownerSigned (x.take 212) (slice 212 96 x)) then .error .notPermitted
  else .ok transfer

/-- OWNER_BIND (R69): a binding fuses its slot and restarts; a transfer runs Knell and scrubs first. -/
def bindOwner (s : State) (x : Octets) : State :=
  let k := octetAt 12 x
  let key := slice 16 97 x
  match s.bindCase x with
  | .error st => s.reject 0x0D02 st
  | .ok transfer =>
    let s := if transfer then ((s.knell 2).scrubAll).fuseOwner k key 2 else s.fuseOwner k key 1
    (s.reply 0x0D02 .ok []).warmReset 3

/-- What R73 asks of a token past its form, R366 of the clock, and R72 of the entropy source. -/
def tokenAllowed (s : State) (x : Octets) : Bool :=
  s.namesUs x && (match s.quartz.debugChallenge with
    | some (c, secs, ns) => c == slice 12 16 x && decide (s.now ≤ secs * nsPerSec + ns)
    | none => false) && s.keys.ent == .healthy && s.quartz.set && decide (s.now ≤ beAt 32 8 x * nsPerSec) && s.ownerSigned (x.take 40) (slice 40 96 x)

/-- Every operation in flight ends with KEY_ERASED (R72 step 5). -/
def endInFlight (s : State) : State :=
  let s := (List.range 64).foldl (fun s p => s.failPeals p .keyErased) s
  (s.descs.map Desc.id).foldl (fun s id => s.complete id .keyErased []) s

/-- The scrub of an unlock has its turn: every partition is scrubbed, and the scope that the token named unlocks (R72 steps 5
and 6). -/
def debugEnds (s : State) : State :=
  match s.debugPending with
  | none => s
  | some scope =>
    let s : State := { s.scrubAll with debugScope := scope, debugPending := none }
    (s.raise 0x0B01 none (oct 0 ++ oct scope)).reply 0x0D01 .ok []

/-- DEBUG_UNLOCK (R72, R73): Knell, the end of every operation in flight, a scrub of every partition, and then the unlock. The scrub runs in
the first KCLK cycle with no other work waiting, so that the completions with KEY_ERASED can leave before it. A token that is rejected for
its form is no attempt, and leaves the challenge; any other uses it up (log entry 30). -/
def unlockDebug (s : State) (x : Octets) : State :=
  if !debugForm x then s.reject 0x0D01 .badDescriptor
  else
    let good := s.tokenAllowed x
    let s : State := { s with quartz := { s.quartz with debugChallenge := none } }
    if !good then s.reject 0x0D01 .notPermitted
    else
      { (s.knell 3).endInFlight with debugPending := some (octetAt 28 x) }

/-- The JTAG port changed. -/
def setJtag (s : State) (f : Jtag → Jtag) : State := { s with jtag := f s.jtag }

end State

/-! ### Meanings -/

/-- OWNER_BIND (R67 to R70). -/
def execOwnerBind (record : Octets) (s : State) : Host.Outcome State Fault Refusal := .next (s.bindOwner record)

/-- DEBUG_CHALLENGE (R72): a later one replaces an earlier; it holds for 600 s of Quartz time. -/
def execDebugChallenge (s : State) : Host.Outcome State Fault Refusal :=
  .next (s.challenge (fun c s => { s with quartz := { s.quartz with debugChallenge := some (c, s.quartz.secs + 600, s.quartz.ns) } }))

/-- DEBUG_UNLOCK (R72, R73, R366). -/
def execDebugUnlock (record : Octets) (s : State) : Host.Outcome State Fault Refusal := .next (s.unlockDebug record)

/-- JTAG_BYPASS (R71): one bit through the bypass register. -/
def execJtagBypass (tdi : Bool) (s : State) : Host.Outcome State Fault Refusal :=
  .next ((s.emit (.tdo [s.jtag.bypass])).setJtag (fun j => { j with ir := 0, bypass := tdi, driven := none }))

/-- JTAG_IDCODE (R71): the identification register, least significant bit first. -/
def execJtagIdcode (s : State) : Host.Outcome State Fault Refusal :=
  .next ((s.emit (.tdo ((List.range 32).map Config.jtagIdcode.getLsbD))).setJtag (fun j => { j with ir := 1, driven := none }))

/-- JTAG_SAMPLE_PRELOAD (R71): the pins are captured and shifted out while the next values are shifted in. -/
def execJtagSamplePreload (pins shiftIn : List Bool) (s : State) : Host.Outcome State Fault Refusal :=
  .next ((s.emit (.tdo (pins.take Config.boundaryCells))).setJtag (fun j =>
    { j with ir := 2, boundary := shiftIn.take Config.boundaryCells, driven := none }))

/-- JTAG_EXTEST (R71): the preloaded values drive the pins. -/
def execJtagExtest (s : State) : Host.Outcome State Fault Refusal :=
  .next (s.setJtag (fun j => { j with ir := 3, driven := some j.boundary }))

end Sys2Proof.Machine
end

