-- ==== Sys2Proof/Machine/Tocsin.lean ====
section
/-! DEFINITION. The Tocsin network and the command mailbox: frames, sessions, records in assembly, and GO (R67, R416 to R421, R458
to R461). -/

namespace Sys2Proof.Machine

/-- A Tocsin header with its fields in order: version, kind, body length within the frame (R417). -/
def tocsinHeadOk (x : Octets) : Bool :=
  decide (16 ≤ x.length) && octetAt 0 x == 1 && [0x01, 0x02, 0x10, 0x11, 0x12, 0x20, 0x21, 0x22].contains (octetAt 1 x) &&
    decide (16 + beAt 2 2 x ≤ x.length) && (decide (3 ≤ octetAt 1 x) || beAt 4 4 x == 0)

/-- The frame that a header and body spell. -/
def tocsinFrameOf (x : Octets) : TocsinFrame := ⟨beAt 4 4 x, beAt 8 8 x, slice 16 (beAt 2 2 x) x⟩

/-- The 16-octet header of a frame from an operator. -/
def frameHead (kind : Nat) (f : TocsinFrame) : Octets :=
  [0x01, BitVec.ofNat 8 kind] ++ beBytes 2 f.body.length ++ beBytes 4 f.session ++ beBytes 8 f.seq

/-- The form of an operator certificate (R419). -/
def certForm (c : Octets) : Bool :=
  beAt 0 2 c == 0x0D0B && beAt 2 2 c == 212 && zerosAt 8 2 c && zerosAt 113 3 c && (p384Decode (slice 16 97 c)).isSome

/-- T of R420: the session keys' octets. -/
def sessionKeys (z nonce : Octets) : Octets :=
  sha384 (beBytes 4 1 ++ z ++ ascii "OMOTH TOCSIN" ++ nonce) ++ sha384 (beBytes 4 2 ++ z ++ ascii "OMOTH TOCSIN" ++ nonce)

namespace State

/-! ### Sessions (R420, R421) -/

/-- A frame is dropped and counted (R416, R417, R421). -/
def dropTocsin (s : State) (port : Nat) : State := s.bump (.tocsinDrop port)

/-- A session ends: an image update that it carries is abandoned (R103, R421). -/
def endSession (s : State) (id : Nat) : State :=
  if (s.session id).isNone then s
  else
    let s := s.sessionUpdate id
    { s with tocsin := { s.tocsin with sessions := s.tocsin.sessions.filter (fun x => x.id != id) } }

/-- A session ID that no session has: the device's choice, or the next after it that is free and not 0 (R417, R420; log entry 3). -/
def newSessionId (s : State) : Nat :=
  let v := (Config.sessionId s.tocsin.formed).toNat
  (((List.range (s.tocsin.sessions.length + 2)).map (fun i => (v + i) % 2 ^ 32)).find? (fun x => x != 0 && (s.session x).isNone)).getD 1

/-- The next free scalar of P-384, from 1 to n − 1 (R420; log entry 3). -/
def freeScalar (s : State) : Nat × State :=
  ((Config.freeScalar s.freeCtr).toNat % (p384N - 1) + 1, { s with freeCtr := s.freeCtr + 1 })

/-- HELLO's tests (R355, R419, R420). -/
def helloOk (s : State) (b : Octets) : Bool :=
  let c := b.take 212
  certForm c && zerosAt 309 3 b && s.ownerSigned (c.take 116) (slice 116 96 c) &&
    !(s.quartz.set && decide (beAt 8 8 c < s.quartz.secs)) && decide (s.tocsin.sessions.countP (fun x => x.isOpen) < 4) &&
    s.keys.ent == .healthy

/-- A HELLO that passes is answered with a CHALLENGE that carries a new session ID (R420). A scalar from 1 to n − 1 takes no point of the
curve to infinity, since the order n is prime. -/
def openSession (s : State) (port : Nat) (b : Octets) : State :=
  let c := b.take 212
  let e := s.freeScalar
  let k := e.2.freeScalar
  match s.derivedKey 6, p384Decode (slice 212 97 b), k.2.drbg 16 with
  | some id, some q, some (nonce, s) =>
    let z := (ecdhX e.1 (some q)).getD []
    let s := if s.quartz.set then s else s.raise 0x0C01 none (oct 1 ++ leBytes 4 (beAt 4 4 c))
    let head := p384Encode (p384Mul e.1 p384G) ++ zeros 3 ++ nonce
    let body := head ++ ecdsaSign (scalarOfKey id) k.1 (b ++ head)
    let t := sessionKeys z nonce
    let n := s.newSessionId
    let x : Session := {
      id := n, isOpen := false, serial := beAt 4 4 c, notAfter := beAt 8 8 c, opKeyPoint := slice 16 97 c, hello := b,
      challenge := body, opKey := slice 0 32 t, opSalt := slice 32 4 t, devKey := slice 48 32 t, devSalt := slice 80 4 t, rxSeq := 0,
      txSeq := 0, assembling := none }
    let s : State := { s with tocsin := { s.tocsin with sessions := s.tocsin.sessions ++ [x], formed := s.tocsin.formed + 1 } }
    s.sendTocsin port (tocsinBytes 0x11 n 0 body)
  | _, _, _ => s

/-- The plaintext of a sealed frame of an open session whose sequence is new; none for a frame that is dropped (R421). -/
def openFrame (s : State) (port kind : Nat) (f : TocsinFrame) : Option (Session × Octets) × State :=
  match s.session f.session with
  | none => (none, s)
  | some x =>
    if !x.isOpen then (none, s)
    else if f.seq ≤ x.rxSeq then (none, s.dropTocsin port)
    else
      let n := f.body.length - 16
      match (if f.body.length < 16 then none
          else gcmOpen x.opKey (x.opSalt ++ beBytes 8 f.seq) (frameHead kind f) (f.body.take n) (f.body.drop n)) with
      | some pt => (some (x, pt), s.updSession x.id (fun y => { y with rxSeq := f.seq }))
      | none => (none, s)

/-! ### Records (R458, R459, R461) -/

/-- A record received whole waits for the mailbox (R458, R459). -/
def queueRecord (s : State) (via : Option (Nat × Nat)) (x : Octets) : State :=
  let s : State := { s with mail := { s.mail with queue := s.mail.queue ++ [⟨via, x⟩] } }
  if s.mail.current.isNone then s.handOnce .go else s

/-- A piece that breaks R459 abandons the record in assembly and draws BAD_DESCRIPTOR. -/
def badPiece (s : State) (id port : Nat) (first : Octets) : State :=
  (s.updSession id (fun y => { y with assembling := none })).sendReply id port (replyBytes (beAt 0 2 first) .badDescriptor [])

/-- One piece of a session's record (R459). -/
def takePiece (s : State) (x : Session) (port : Nat) (pt : Octets) : State :=
  let fl := octetAt 0 pt
  let total := beAt 4 4 pt
  let off := beAt 8 4 pt
  let piece := pt.drop 16
  let sofar := if bitOf fl 0 then some (total, []) else x.assembling
  let known := ((sofar.map Prod.snd).getD []) ++ piece
  if pt.length < 16 || 4 ≤ fl || !(zerosAt 1 3 pt) || !(zerosAt 12 4 pt) then s.badPiece x.id port known
  else match sofar with
    | none => s.badPiece x.id port piece
    | some (n, y) =>
      let z := y ++ piece
      if off != y.length || n != total || total < 8 || 16777216 < total || total < z.length || (bitOf fl 1 && z.length != total) then
        s.badPiece x.id port known
      else if bitOf fl 1 then (s.updSession x.id (fun w => { w with assembling := none })).queueRecord (some (x.id, port)) z
      else s.updSession x.id (fun w => { w with assembling := some (n, z) })

/-- A RECORD in clear with session ID 0: an owner bind record of an unbound Doldex, in one piece (R67, R461). -/
def clearRecord (s : State) (port : Nat) (pt : Octets) : State :=
  let x := pt.drop 16
  if s.activeOwner.isSome || pt.length < 16 then s
  else if octetAt 0 pt != 3 || !(zerosAt 1 3 pt) || beAt 4 4 pt != x.length || !(zerosAt 8 8 pt) then
    s.sendReply 0 port (replyBytes (beAt 0 2 x) .badDescriptor [])
  else s.queueRecord (some (0, port)) x

/-! ### GO (R458, R460) -/

/-- A record with a form that its row does not see: the row's command, or none for BAD_DESCRIPTOR (R101, R409, R431, R460). -/
def recordCmd (x : Octets) : Option Instr :=
  let len := x.length
  match beAt 0 2 x with
  | 0x0D01 => some (.debugUnlock x)
  | 0x0D02 => some (.ownerBind x)
  | 0x0D03 => some (.reload x)
  | 0x0D04 => some (.release x)
  | 0x0D05 => if len == 328 && beAt 2 2 x == 328 && zerosAt 4 4 x then some (.imageBegin (x.drop 8)) else none
  | 0x0D06 =>
    let c := beAt 8 4 x
    if len == 16 + c && beAt 2 2 x == len && 1 ≤ c && c ≤ 4096 && zerosAt 12 4 x then some (.imageData (beAt 4 4 x) (x.drop 16)) else none
  | 0x0D07 => if len == 8 && beAt 2 2 x == 8 && zerosAt 4 4 x then some .imageEnd else none
  | 0x0D08 => some (.keyWrap x)
  | 0x0D0A => some (.timeSet x)
  | 0x0D0C =>
    let p := octetAt 4 x
    if len == 8 && beAt 2 2 x == 8 && zerosAt 6 2 x && ((1 ≤ p && p < 64) || p == 0xFF) then
      (match octetAt 5 x with
       | 1 => some (.admitRestore p)
       | 2 => some (.admitDiscard p)
       | _ => none)
    else none
  | 0x0D0D => if len == 8 && beAt 2 2 x == 8 && zerosAt 4 4 x then some .wake else none
  | 0x0D10 =>
    let c := beAt 8 2 x
    if len == 16 && beAt 2 2 x == 16 && zerosAt 12 4 x && beAt 4 4 x % 4 == 0 && 4 ≤ c && c ≤ 1024 && c % 4 == 0 then
      some (.read (beAt 4 4 x) c (beAt 10 2 x)) else none
  | 0x0D11 => if len == 16 && beAt 2 2 x == 16 && zerosAt 12 4 x then some (.write (beAt 4 4 x) (beAt 8 4 x)) else none
  | 0x0D12 =>
    if len == 8 && beAt 2 2 x == 8 && zerosAt 5 3 x then
      (match octetAt 4 x with
       | 1 => some .debugChallenge
       | 2 => some .timeChallenge
       | _ => none)
    else none
  | 0x0D13 =>
    if len == 8 && beAt 2 2 x == 8 && zerosAt 5 3 x then
      (match octetAt 4 x with
       | 1 => some .resetWarm
       | 2 => some .resetCold
       | _ => none)
    else none
  | _ => none

/-- GO: the next record received whole is moved into the buffer, or the buffer stands as firmware wrote it; the record goes to its
row (R458, R460). An unbound Doldex takes owner bind records alone, and answers a KEY_WRAP in its own form (R67, R346). -/
def goMail (s : State) : State :=
  if s.mail.current.isSome then s
  else
    let r : MailIn := s.mail.queue.head?.getD ⟨none, memRead 0 s.mail.buffer 0 s.mail.length⟩
    let x := r.octets
    let s : State := { s with mail := { s.mail with
      queue := s.mail.queue.drop 1, current := some r, length := x.length, buffer := memWrite 0 s.mail.buffer 0 x } }
    let type := beAt 0 2 x
    match recordCmd x with
    | none => s.reply type .badDescriptor []
    | some c =>
      if s.activeOwner.isNone && type != 0x0D02 then
        (if type == 0x0D08 then s.answer .notPermitted (keyWrapReply s.fixed .notPermitted (zeros 40)) else s.reply type .notPermitted [])
      else s.hand c

/-! ### Management firmware (R414, R415) -/

/-- The management firmware runs: from stage 12 on, and not while reset is held (R379, R396). -/
def fwRuns (s : State) : Bool := match s.boot.phase with
  | .stage n => decide (12 ≤ n)
  | .ready => true
  | .visibility => !s.workingDevs.isEmpty
  | _ => false

/-- The firmware serves the MGMT ports: it runs, and no restart of it is under way (R415). -/
def fwServes (s : State) : Bool := s.fwRuns && !s.boot.fwDown

/-- The management core pair is restarted: sessions end, the record and the update in progress are abandoned, and the fourth restart
in 600 s leaves the boot-ROM program to serve (R414, R415). -/
def restartFw (s : State) : State :=
  if !s.fwRuns || s.boot.bootrom then s
  else
    let s := (s.tocsin.sessions.map Session.id).foldl endSession s
    let s := if s.flash.update.any (fun u => !u.background) then s.abandonUpdate 0 else s
    let times := s.boot.fwTimes.filter (fun t => decide (s.quartz.secs < t + 600)) ++ [s.quartz.secs]
    let s : State := { s with
      mail := { s.mail with queue := [], current := none },
      boot := { s.boot with
        fwRestarts := (s.boot.fwRestarts + 1) % 2 ^ 32, fwTimes := times, fwWatch := s.cycle, fwDown := true } }
    if times.length < 4 then s
    else ({ s with boot := { s.boot with bootrom := true } } : State).raise 0x0902 none (oct 1 ++ oct times.length)

end State

/-! ### Meanings -/

/-- HEARTBEAT (R418). -/
def execHeartbeat (s : State) : Host.Outcome State Fault Refusal := .next (if s.fwServes then s.beat 0x01 else s)

/-- HELLO (R420). -/
def execHello (port : MgmtPort) (f : TocsinFrame) (s : State) : Host.Outcome State Fault Refusal :=
  .next (if f.session != 0 || f.body.length != 312 then s.dropTocsin port
    else if s.fwServes && s.helloOk f.body then s.openSession port f.body else s)

/-- PROOF (R420): the session is open when its signature verifies. -/
def execProof (port : MgmtPort) (f : TocsinFrame) (s : State) : Host.Outcome State Fault Refusal :=
  if f.body.length != 96 then .next (s.dropTocsin port)
  else match s.session f.session with
    | some x =>
      if !x.isOpen && ecdsaVerify x.opKeyPoint (x.hello ++ x.challenge) f.body then .next (s.updSession x.id (fun y => { y with isOpen := true }))
      else .next s
    | none => .next s

/-- PROOF_TIMEOUT (R420). -/
def execProofTimeout (session : Nat) (s : State) : Host.Outcome State Fault Refusal :=
  .next (if (s.session session).any (fun x => !x.isOpen) then s.endSession session else s)

/-- RECORD (R421, R459, R461). -/
def execRecord (port : MgmtPort) (f : TocsinFrame) (s : State) : Host.Outcome State Fault Refusal :=
  if f.session == 0 then .next (if s.fwServes then s.clearRecord port f.body else s)
  else match s.openFrame port 0x20 f with
    | (some (x, pt), s) => .next (if pt.isEmpty then s else s.takePiece x port pt)
    | (none, s) => .next s

/-- CLOSE (R421). -/
def execClose (port : MgmtPort) (f : TocsinFrame) (s : State) : Host.Outcome State Fault Refusal :=
  match s.openFrame port 0x22 f with
  | (some (x, _), s) => .next (s.endSession x.id)
  | (none, s) => .next s

/-- SESSION_IDLE_TIMEOUT (R421). -/
def execSessionIdleTimeout (session : Nat) (s : State) : Host.Outcome State Fault Refusal := .next (s.endSession session)

/-- SESSION_CERT_EXPIRY (R421). -/
def execSessionCertExpiry (session : Nat) (s : State) : Host.Outcome State Fault Refusal :=
  .next (if s.quartz.set then s.endSession session else s)

/-- GO (R458). -/
def execGo (s : State) : Host.Outcome State Fault Refusal := .next s.goMail

/-- TOCSIN_FRAME_DROP (R416, R417): a frame of another EtherType or length, or with a header that breaks its rule, is counted; any
other goes to its row. -/
def execTocsinFrameDrop (port : MgmtPort) (frame : Octets) (s : State) : Host.Outcome State Fault Refusal :=
  let x := frame.drop 14
  if beAt 12 2 frame != 0x88B6 || 1514 < frame.length || !(tocsinHeadOk x) then .next (s.dropTocsin port)
  else
    let f := tocsinFrameOf x
    match octetAt 1 x with
    | 0x10 => .next (s.hand (.hello port f))
    | 0x12 => .next (s.hand (.proof port f))
    | 0x20 => .next (s.hand (.record port f))
    | 0x22 => .next (s.hand (.close port f))
    | _ => .next s

/-- MGMT_LINK_CHANGE (R418). -/
def execMgmtLinkChange (port : MgmtPort) (up : Bool) (s : State) : Host.Outcome State Fault Refusal :=
  .next { s with tocsin := { s.tocsin with links := s.tocsin.links.set port up } }

/-- WATCHDOG_WRITE (R414, R445): the count starts again. The first write after a restart shows that the firmware runs again, and a firmware
that runs has taken the Snare samples delivered to it (DESIGN CHOICE, log entry 37). -/
def execWatchdogWrite (_v : Word32) (s : State) : Host.Outcome State Fault Refusal :=
  .next { s with boot := { s.boot with fwWatch := s.cycle, fwDown := false }, snare := [] }

/-- FW_WATCHDOG_EXPIRY (R414): 30 ms without a write. -/
def execFwWatchdogExpiry (s : State) : Host.Outcome State Fault Refusal := .next s.restartFw

/-- FW_LOCKSTEP_FAULT (R414). -/
def execFwLockstepFault (s : State) : Host.Outcome State Fault Refusal := .next s.restartFw

end Sys2Proof.Machine
end

