-- ==== Sys2Proof/Machine/MgmtMap.lean ====
section
/-! DEFINITION. Management space: blocks, views and windows, READ and WRITE, registers, and the event ring (R5, R7, R434, R437, R438,
R442 to R457). -/

namespace Sys2Proof.Machine

/-- The blocks of management space: first and last address (R442). -/
def mgmtBlocks : List (Nat × Nat) :=
  [(0, 0xFFF), (0x1000, 0x1FFF), (0x2000, 0xFFFF), (0x10000, 0x1FFFF), (0x20000, 0x3FFFF), (0x40000, 0x7FFFF), (0x80000, 0x9FFFF),
   (0xA0000, 0xFFFFF), (0x100000, 0x1FFFFF), (0x200000, 0x1FFFFFF)]

/-- The views and windows: first and last address, and the greatest select (R451 to R453, R457). -/
def mgmtWindows : List (Nat × Nat × Nat) :=
  ((List.range 16).map (fun m => (0x200C0 + 0x1000 * m, 0x200FF + 0x1000 * m, 104))) ++
  [(0x30000, 0x3FFFF, 63), (0x50000, 0x7FFFF, 63), (0x81000, 0x9FFFF, 63), (0xB0000, 0xFFFFF, 63), (0x108000, 0x10FFFF, 63),
   (0x140000, 0x14FFFF, 127), (0x180000, 0x18FFFF, 31)]

/-- A range of addresses stands in one block, and in one window or outside every window; its select is then in range (R460). -/
def readRangeOk (addr count select : Nat) : Bool :=
  let last := addr + count - 1
  mgmtBlocks.any (fun b => decide (b.1 ≤ addr) && decide (last ≤ b.2)) &&
    (match mgmtWindows.find? (fun w => decide (w.1 ≤ last) && decide (addr ≤ w.2.1)) with
     | some w => decide (w.1 ≤ addr) && decide (last ≤ w.2.1) && decide (select ≤ w.2.2)
     | none => select == 0)

/-- Four octets of a field from its offset k. -/
def wordOf (x : Octets) (k : Nat) : Octets := slice k 4 (x ++ zeros 3)

/-- A field of 4 or 8 octets, little-endian (R3). -/
def le4 (v : Nat) : Octets := leBytes 4 (v % 2 ^ 32)
/-- As le4, 8 octets. -/
def le8 (v : Nat) : Octets := leBytes 8 (v % 2 ^ 64)

/-- Bits set where a test holds. -/
def bitsWhere (n : Nat) (f : Nat → Bool) : Nat := ((List.range n).map (fun i => if f i then 2 ^ i else 0)).sum

/-- The set, index and width that an offset in a view names (R452). -/
def viewIndex (o : Nat) : Nat × Nat × Nat :=
  if o < 0x5000 then (1, o / 8, 8)
  else if o < 0x6400 then (2, (o - 0x5000) / 8, 8)
  else if o < 0x6800 then (3, (o - 0x6400) / 8, 8)
  else if o < 0x6B00 then (4, (o - 0x6800) / 8, 8)
  else if o < 0x8000 then (5, (o - 0x6B00) / 8, 8)
  else if o < 0x1A000 then (6, (o - 0x8000) / 4, 4)
  else (8, (o - 0x1A000) / 8, 8)

/-- Codes of mirror states (R446). -/
def mirrorCode : MirrorState → Nat
  | .none => 0
  | .unprotected => 1
  | .heldBack => 2
  | .restoring => 3
  | .staged => 4
  | .mirrored => 5
  | .lagging => 6

/-- A field that lies from `base` for `x.length` octets: its four octets at offset o. -/
def fieldAt (base o : Nat) (x : Octets) : Octets := wordOf x (o - base)

namespace State

/-! ### Blocks, four octets at an offset -/

/-- The public key of a derived slot, X then Y; zeros where the slot is not held (R444). -/
def publicOf (s : State) (slot : Nat) : Octets := match s.derivedKey slot with
  | some k => p384Coords (p384Mul (scalarOfKey k) p384G)
  | none => zeros 96

/-- Code of an owner slot (R444). -/
def ownerCode (s : State) (k : Nat) : Nat := match s.ownerSlot k with
  | .blank => 0
  | .valid _ => 1
  | .void => 2

/-- The ID block (R444). -/
def idWord (s : State) (o : Nat) : Octets :=
  if o == 0 then le4 0x4F4D5640
  else if o == 4 then le4 0x0000B001
  else if o < 0x10 then fieldAt 8 o (le8 s.fixed.uid.toNat)
  else if o == 0x10 then le4 (s.ownerCode 0 + 4 * s.ownerCode 1 + 16 * s.activeOwner.isSome.toNat)
  else if 0x40 ≤ o && o < 0x70 then fieldAt 0x40 o (match s.activeOwner with
    | some h => beBytes 48 h.toNat
    | none => zeros 48)
  else if 0x100 ≤ o && o < 0x160 then fieldAt 0x100 o (s.publicOf 1)
  else if 0x160 ≤ o && o < 0x1C0 then fieldAt 0x160 o (s.publicOf 6)
  else zeros 4

/-- A partition's summary (R446). -/
def summary (s : State) (p : Nat) : Octets :=
  let q := s.part p
  let st := pstateCode q.state + 16 * mirrorCode q.mirror
  match s.conf.partOf p with
  | none => le4 st ++ zeros 28
  | some r =>
    le4 (st + 256 * r.isolated.toNat + 512 * r.haltOnNan.toNat + 1024 * r.tenantPrograms.toNat) ++
      le4 (r.clusterMask + 65536 * r.lineMask) ++ le4 (r.keyFirst + 65536 * r.keyCount) ++ le4 (r.syncFirst + 65536 * r.syncCount) ++
      le4 (r.groupFirst + 65536 * r.groupCount) ++ le4 r.streamFirst ++ le4 r.streamCount ++
      le4 (q.pairs.length + 65536 * (s.windows p).length)

/-- The booted image is known, so that ports without a record read as disabled. -/
def offBits (s : State) (n : Nat) (good : Nat → Bool) : Nat := if s.boot.image.isSome then bitsWhere n (fun i => !(good i)) else 0

/-- The status block (R445 to R447). -/
def statusWord (s : State) (o : Nat) : Octets :=
  let b := s.boot
  if o == 0 then le4 (s.stageCode + 256 * (b.phase == .ready).toNat + 512 * b.bootrom.toNat)
  else if o == 4 then le4 b.serviceCause
  else if 8 ≤ o && o < 0x10 then fieldAt 8 o (le8 ((b.image.map Candidate.seq).getD 0))
  else if o == 0x14 then le4 (bitsWhere 5 b.lasers.contains + 32 * b.pllSel + 64 * (b.pllFailed.getD 0 false).toNat +
    128 * (b.pllFailed.getD 1 false).toNat + 256 * (b.image.map Candidate.dev).getD 0)
  else if o == 0x18 then le4 (bitsWhere 6 b.dies.contains)
  else if o == 0x1C then le4 b.fwRestarts
  else if 0x20 ≤ o && o < 0x28 then fieldAt 0x20 o (le8 (s.offBits 64 s.localGood))
  else if o == 0x28 then le4 (s.offBits 16 s.lineGood)
  else if o == 0x2C then le4 (bitsWhere 16 (fun c => (s.cluster c).retired) + 65536 * bitsWhere 4 (fun k => (s.sliceOf k).retired) +
    2 ^ 20 * bitsWhere 6 b.stackOff.contains)
  else if o == 0x30 then le4 (s.ctr .snareDrop)
  else if o == 0x34 then le4 (s.ctr (.tocsinDrop 0))
  else if o == 0x38 then le4 (s.ctr (.tocsinDrop 1))
  else if 0x40 ≤ o && o < 0x70 then fieldAt (o / 8 * 8) o (le8 (s.ctr (.eccCorr ((o - 0x40) / 8))))
  else if 0x80 ≤ o && o < 0xF8 then
    let n := b.bundles.getD ((o - 0x80) / 4) 0
    le4 (n + 256 * (decide (64 ≤ n)).toNat)
  else if 0x100 ≤ o && o < 0x1C0 then le4 (b.spares.getD ((o - 0x100) / 4) 0)
  else if 0x1C0 ≤ o && o < 0x1D8 then le4 (s.ctr (.eccUncorr ((o - 0x1C0) / 4)))
  else if 0x400 ≤ o && o < 0x540 then fieldAt 0x400 o (fitTo 320 0 b.header)
  else if 0x800 ≤ o then fieldAt 0 (o % 32) (s.summary ((o - 0x800) / 32))
  else zeros 4

/-- Code of a cluster's power state (R448). -/
def clusterCode (s : State) (c : Nat) : Nat := if (s.cluster c).retired then 3 else if (s.cluster c).power < 3 then (s.cluster c).power else 0

/-- The power block (R448). The power estimate and the temperatures are measurements of the moment: free values (log entry 3). -/
def powerWord (s : State) (o : Nat) : Octets :=
  if o == 0 then le4 (16 * bitsWhere 4 (fun p => (s.power.planes.getD p .run).state == 3) + (s.power.device.state == 4).toNat +
    2 * s.power.throttle.isSome.toNat)
  else if o == 4 then le4 (((List.range 16).map (fun c => s.clusterCode c * 4 ^ c)).sum)
  else if o == 8 then [Config.freeOctet s.freeCtr, Config.freeOctet (s.freeCtr + 1), 0, 0]
  else if 0x10 ≤ o && o < 0x28 then [Config.freeOctet (s.freeCtr + 2 + (o - 0x10) / 4), 0, 0, 0]
  else zeros 4

/-- The Quartz block (R449). -/
def quartzWord (s : State) (o : Nat) : Octets :=
  let q := s.quartz
  let servo := if !s.ppsIn then 0 else if q.tracking then 2 else 1
  if o < 8 then fieldAt 0 o (le8 q.secs)
  else if o == 8 then le4 q.ns
  else if o == 0xC then le4 (q.frac / 4096)
  else if o == 0x10 then le4 (q.set.toNat + 2 * q.osc.toNat + 4 * servo + 16 * (q.slew != 0).toNat)
  else if o == 0x14 then le4 (unsignedOf 32 q.corr)
  else if o == 0x18 then le4 q.addend
  else if 0x20 ≤ o && o < 0x28 then fieldAt 0x20 o (le8 (unsignedOf 64 q.slewNs))
  else if o == 0x28 then le4 (unsignedOf 32 q.lastE)
  else if o == 0x2C then le4 (s.ctr .ppsHoldover)
  else if 0x30 ≤ o && o < 0x38 then fieldAt 0x30 o (le8 (s.ctr .ppsEdges))
  else zeros 4

/-- The bin that a select names (R451). -/
def binOf (pm : PmState) (select : Nat) : PmBin :=
  if select == 0 then pm.bin15
  else if select ≤ 96 then pm.done15.getD (select - 1) .zero
  else if select == 97 then pm.bin24
  else pm.done24.getD (select - 98) .zero

/-- A bin's 64 octets (R451). -/
def binBytes (b : PmBin) : Octets :=
  le4 b.es ++ le4 b.ses ++ le4 b.uas ++ le4 b.farEs ++ le4 b.farSes ++ le4 b.farUas ++ le8 b.bbe ++ le8 b.farBbe ++ le8 b.corrected ++
    le8 b.uncorrectable ++ leBytes 1 b.peak ++ leBytes 1 (b.incomplete.toNat + 2 * b.portOff.toNat) ++ zeros 2 ++ le4 b.start

/-- The page of line port m (R450, R451). -/
def pageWord (s : State) (m o select : Nat) : Octets :=
  let l := s.line m
  let r := l.rx
  if o == 0 then le4 ((s.lineUp m).toNat + 4 * r.inFrame.toNat + 8 * r.inMulti.toNat + 16 * r.dlos.toNat + 32 * r.dlof.toNat +
    64 * r.dlom.toNat + 128 * r.dtim.toNat + 256 * l.pm.nearUnavail.toNat + 512 * l.pm.farUnavail.toNat)
  else if 8 ≤ o && o < 0x30 then fieldAt (o / 8 * 8) o (le8 (s.ctr (.page m ((o - 8) / 8))))
  else if 0x30 ≤ o && o < 0x40 then le4 (s.ctr (.page m (5 + (o - 0x30) / 4)))
  else if o == 0x40 then le4 (l.pm.lastPeak % 256)
  else if 0x44 ≤ o && o < 0x4C then le4 (s.ctr (.page m (9 + (o - 0x44) / 4)))
  else if 0x80 ≤ o && o < 0xC0 then fieldAt 0x80 o (fitTo 64 0 r.trace)
  else if 0xC0 ≤ o && o < 0x100 then fieldAt 0xC0 o (binBytes (binOf l.pm select))
  else zeros 4

/-- The counters that a view shows: block 0 line performance, 1 switch, 2 Carillon, 3 key store (R453). -/
def viewShows (block set i : Nat) : Bool :=
  match block, set with
  | 0, 3 => true
  | 0, 4 => i % 16 == 1
  | 0, 5 => 5 ≤ i && i ≤ 8
  | 1, 1 => true
  | 1, 2 => i % 8 != 7
  | 1, 4 => i % 16 != 1
  | 1, 5 => i == 4
  | 2, 5 => i ≤ 3 || (12 ≤ i && i ≤ 14)
  | 2, 6 => true
  | 3, 2 => i % 8 == 7
  | 3, 5 => 9 ≤ i && i ≤ 11
  | 3, 8 => true
  | _, _ => false

/-- A view of a partition at an offset (R452, R453). -/
def viewWord (s : State) (block o p : Nat) : Octets :=
  let x := viewIndex o
  let v := if !(viewShows block x.1 x.2.1) || decide ((s.setSize p x.1).getD 0 ≤ x.2.1) then 0
    else if block == 2 && x.1 == 5 && x.2.1 == 2 then s.ctr (.trapCount p) else s.setValue p x.1 x.2.1
  if x.2.2 == 4 then le4 v else fieldAt (o / 8 * 8) o (le8 v)

/-- The device-wide counters of the switch block (R454). -/
def switchWord (s : State) (a : Nat) : Octets :=
  if a < 0x41000 then
    let n := (a - 0x40000) / 64
    let o := a % 64
    if o < 0x18 then le4 (s.ctr (.rx n (o / 4)))
    else if 0x20 ≤ o && o < 0x28 then fieldAt 0x20 o (le8 (s.ctr (.holdNs n)))
    else if 0x28 ≤ o && o < 0x30 then fieldAt 0x28 o (le8 (s.ctr (.creditNs n)))
    else if o == 0x30 then le4 (s.port n).linkUp.toNat
    else zeros 4
  else if a < 0x43800 then
    let n := (a - 0x41000) / 128
    let o := a % 128
    if o < 8 then fieldAt 0 o (le8 (s.ctr (.guardNs n)))
    else if o < 72 then fieldAt (o / 8 * 8) o (le8 (s.ctr (.shaperNs n ((o - 8) / 8))))
    else zeros 4
  else if 0x44000 ≤ a && a < 0x44300 then
    let d := (a - 0x44000) / 128
    let k := (a % 128) / 32
    let q := s.pool d k
    if 4 ≤ d && k == 3 then zeros 4
    else match a % 32 / 4 with
      | 0 => le4 q.free
      | 1 => le4 (s.sw.bufs.countP (fun b => b.die == d && b.pool == k))
      | 2 => le4 q.quarantined.length
      | 3 => le4 q.low
      | 4 => le4 (s.ctr (.bufQuarantined d k))
      | _ => zeros 4
  else zeros 4

/-- The Carillon status block, less its view (R455). -/
def carillonWord (s : State) (o : Nat) : Octets :=
  if o < 128 then
    let k := o / 32
    let f := o % 32
    if f == 0 then le4 (((s.groups.filter (fun g => g.defn.slice == k)).map (fun g => g.peals.length)).sum)
    else if f == 4 then le4 ((s.conf.parts.map (fun r => r.weights.getD k 0)).sum)
    else if 8 ≤ f && f < 16 then fieldAt 8 f (le8 (s.ctr (.adderCycles k)))
    else zeros 4
  else zeros 4

/-- The key store status block, less its view (R455). -/
def keyWord (s : State) (o : Nat) : Octets :=
  if o == 0 then le4 (match s.keys.ent with
    | .healthy => 0
    | .failed => 1
    | .latched => 2)
  else if o == 4 then le4 (s.ctr .entRct)
  else if o == 8 then le4 (s.ctr .entApt)
  else if 0x40 ≤ o && o < 0x80 then le4 (s.ctr (.cipherIsoShort ((o - 0x40) / 4)))
  else if o == 0x80 then le4 (s.ctr (.bulkDiscard 0))
  else if o == 0x84 then le4 (s.ctr (.bulkDiscard 1))
  else if o == 0x90 then le4 (s.boot.cipher.getD 0 0 + 256 * s.boot.cipher.getD 1 0)
  else zeros 4

/-- The 32 octets at a ring position; zeros where nothing has been written (R437). -/
def ringBytes (s : State) (pos : Nat) : Octets := match s.events.ring.find? (fun e => e.1 % 65536 == pos) with
  | some e => le4 e.1 ++ entryBody e.2
  | none => zeros 32

/-- The event log window (R456, R457). -/
def eventWord (s : State) (o select : Nat) : Octets :=
  if o == 0 then le4 s.events.writeSeq
  else if o == 4 then le4 s.events.readSeq
  else if 8 ≤ o && o < 0x10 then fieldAt 8 o (le8 s.events.lost)
  else if o == 0x10 then le4 s.events.queue.length
  else if 0x8000 ≤ o && o < 0x10000 then fieldAt 0 (o % 32) (s.ringBytes (1024 * select + (o - 0x8000) / 32))
  else if 0x40000 ≤ o && o < 0x50000 then
    let d := s.flashDev (select / 64)
    if d.works then memRead 0xFF d.cells (logBase + 65536 * (select % 64) + (o - 0x40000)) 4 else zeros 4
  else if 0x80000 ≤ o && o < 0x90000 then
    fieldAt 0 (o % 16) (match s.boot.directory[4096 * select + (o - 0x80000) / 16]? with
      | some d => beBytes 2 d.type ++ beBytes 2 d.inst ++ beBytes 4 d.offset ++ beBytes 4 d.length ++ zeros 4
      | none => zeros 16)
  else zeros 4

/-- Four octets of management space (R442). -/
def mgmtWord (s : State) (a select : Nat) : Octets :=
  if a < 0x1000 then s.idWord a
  else if a < 0x2000 then s.statusWord (a - 0x1000)
  else if a < 0x10000 then s.powerWord (a - 0x2000)
  else if a < 0x20000 then s.quartzWord (a - 0x10000)
  else if a < 0x30000 then s.pageWord ((a - 0x20000) / 0x1000) (a % 0x1000) select
  else if a < 0x40000 then s.viewWord 0 (a - 0x30000) select
  else if a < 0x50000 then s.switchWord a
  else if a < 0x80000 then s.viewWord 1 (a - 0x50000) select
  else if a < 0x81000 then s.carillonWord (a - 0x80000)
  else if a < 0xA0000 then s.viewWord 2 (a - 0x81000) select
  else if a < 0xB0000 then s.keyWord (a - 0xA0000)
  else if a < 0x100000 then s.viewWord 3 (a - 0xB0000) select
  else s.eventWord (a - 0x100000) select

/-- READ (R458, R460): the octets of one block or window, sampled at once. -/
def readMgmt (s : State) (addr count select : Nat) : State :=
  if !(readRangeOk addr count select) then s.reply 0x0D10 .badDescriptor []
  else if 0x200000 ≤ addr then s.reply 0x0D10 .notPermitted []
  else
    let x := (List.range (count / 4)).flatMap (fun i => s.mgmtWord (addr + 4 * i) select)
    let s : State := if 0x2000 ≤ addr && addr < 0x2028 then { s with freeCtr := s.freeCtr + 8 } else s
    s.reply 0x0D10 .ok x

/-- A write of READ_SEQ within the written range; the answer tells whether it was accepted (R456). -/
def writeReadSeq (s : State) (v : Nat) : Bool × State :=
  let e := s.events
  let ok := decide (serialDiff 32 v e.readSeq ≤ serialDiff 32 e.writeSeq e.readSeq)
  (ok, if ok then { s with events := { e with readSeq := v % 2 ^ 32 } } else s)

/-- A write to a word of management space, by the access codes of its fields: those with a row of their own are handed to it, LENGTH
and the record buffer take the value, and every other field is read-only or reserved (R5, R7, R442, R445, R456, R458). -/
def mgmtWrite (s : State) (a : Nat) (v : Word64) : State :=
  let w := v.toNat % 2 ^ 32
  if a == 0x1010 then s.hand (.watchdogWrite (BitVec.ofNat 32 w))
  else if a == 0x100004 then s.hand (.readSeqWrite w)
  else if a == 0x200000 then (if w % 2 == 1 then s.hand .go else s)
  else if a == 0x200008 then { s with mail := { s.mail with length := w % 2 ^ 25 } }
  else if 0x1000000 ≤ a && a + 4 ≤ 0x2000000 then { s with mail := { s.mail with buffer := memWrite 0 s.mail.buffer (a - 0x1000000) (le4 w) } }
  else s

end State

/-! ### Meanings -/

/-- READ (R434, R460). -/
def execRead (addr count select : Nat) (s : State) : Host.Outcome State Fault Refusal := .next (s.readMgmt addr count select)

/-- WRITE (R460): only READ_SEQ takes one, and its write answers. -/
def execWrite (addr value : Nat) (s : State) : Host.Outcome State Fault Refusal :=
  .next (if addr == 0x100004 then s.hand (.readSeqWrite value) else s.reply 0x0D11 .notPermitted [])

/-- READ_SEQ_WRITE (R456): the answer to the WRITE record that carried it, where one did. -/
def execReadSeqWrite (value : Nat) (s : State) : Host.Outcome State Fault Refusal :=
  let r := s.writeReadSeq value
  .next (if r.2.mail.current.isSome then r.2.reply 0x0D11 (if r.1 then .ok else .badDescriptor) [] else r.2)

/-- REGISTER_WRITE (R7). -/
def execRegisterWrite (t : RegTarget) (v : Word64) (s : State) : Host.Outcome State Fault Refusal :=
  match t with
  | .csr core addr => .next ((s.csrWrite core addr v).getD s)
  | .mgmt addr => .next (s.mgmtWrite addr v)

/-- EVENT_QUEUE_DRAIN (R438): at most 4 entries a KCLK cycle. -/
def execEventQueueDrain (s : State) : Host.Outcome State Fault Refusal := .next s.drainOne.drainOne.drainOne.drainOne

end Sys2Proof.Machine
end

