-- ==== Sys2Proof/Machine/Power.lean ====
section
/-! DEFINITION. Power states, wakes, maintenance windows and the thermal limits (R423 to R432, R473). -/

namespace Sys2Proof.Machine

/-- Entry cost of a state, in ns (R423). -/
def entryCost (t : Nat) : Nat := [0, 10, 2000, 1000000, 200000000].getD t 0

/-- Wake time of a state, in ns (R423). -/
def wakeTime (t : Nat) : Nat := [0, 20, 10000, 3000000, 900000000].getD t 0

/-- States of a unit other than A0, shallowest first (R423). -/
def unitStates : PowerUnit → List Nat
  | .cluster _ => [1, 2]
  | .plane _ => [3]
  | .device => [4]

/-- A state fits before an event `d` ns ahead: R424's third condition. -/
def fitsBefore (margin : Nat) (d : Option Nat) (t : Nat) : Bool := d.all (fun x => decide (entryCost t + wakeTime t + margin ≤ x))

/-- The deepest state of a unit that R424 allows. -/
def deepestFit (u : PowerUnit) (deepest margin : Nat) (d : Option Nat) : Option Nat :=
  ((unitStates u).filter (fun t => decide (t ≤ deepest) && fitsBefore margin d t)).getLast?

/-- Openings of a gate's entries of one owner, in ns after the start of the entry in force, from the list turned to that entry: each
entry's start, the one in force a cycle on (R269, R425). -/
def ownedStarts (p : Nat) (turned : List GateEntry) : List Nat :=
  let total := (turned.map (·.interval)).sum
  (turned.foldl (fun (r : Nat × List Nat) (e : GateEntry) =>
    (r.1 + e.interval, if e.owner == p then r.2 ++ [if r.1 == 0 then total else r.1] else r.2)) (0, [])).2

/-- A cluster entering a state of its own with what a fault has left of it (R28). -/
def bareCluster (k : Cluster) : Cluster := { Cluster.reset with retired := k.retired, faulty := k.faulty, cvFaulty := k.cvFaulty }

namespace State

/-- Deepest state and margin of the POWER record; A2 and 50 µs without one (R76, R93). -/
def powerLimits (s : State) : Nat × Nat := (s.conf.power.map (fun r => (r.deepest, 1000 * r.margin))).getD (2, 50000)

/-! ### Units -/

/-- Power state of a unit. -/
def unitPower (s : State) (u : PowerUnit) : PowerState := match u with
  | .cluster c => ⟨(s.cluster c).power, (s.cluster c).entering, (s.cluster c).waking, s.power.clusterCause.contains c.val⟩
  | .plane k => s.power.planes.getD k .run
  | .device => s.power.device

/-- Power state of a unit set. -/
def setUnitPower (s : State) (u : PowerUnit) (x : PowerState) : State := match u with
  | .cluster c =>
    let s := s.updCluster c (fun k => { k with power := x.state, entering := x.entering, waking := x.waking })
    { s with power := { s.power with clusterCause := s.power.clusterCause.filter (· != c.val) ++ (if x.cause then [c.val] else []) } }
  | .plane k => { s with power := { s.power with planes := s.power.planes.set k x } }
  | .device => { s with power := { s.power with device := x } }

/-- A wake cause for a unit arrives (R428). -/
def needUnit (s : State) (u : PowerUnit) : State := match u with
  | .cluster c => s.needCluster c
  | .plane k => s.needPlane k
  | .device => s.wakeDevice

/-- POWER_STATE event of a plane or the device (R440, R478). -/
def powerEvent (s : State) (u : PowerUnit) (old new : Nat) : State := match u with
  | .cluster _ => s
  | .plane k => s.raise 0x0A02 none (oct 0 ++ oct k ++ oct old ++ oct new)
  | .device => s.raise 0x0A02 none (oct 0 ++ oct 4 ++ oct old ++ oct new)

/-! ### The choice (R424 to R427) -/

/-- The partition that holds a cluster. -/
def clusterHolder (s : State) (c : Nat) : Option Nat := (s.conf.parts.find? (fun r => r.hasCluster c)).map (·.part)

/-- A scrub that has this cluster in it is not complete (R59, R60). -/
def clusterScrubbed (s : State) (c : Nat) : Bool := s.awaiting.any (fun x => x.1.hasCluster c)

/-- R425: no invocation runs or waits on the cluster, and no projection, DMA transfer, matrix command or scrub is in progress. -/
def clusterIdle (s : State) (c : Nat) : Bool :=
  let k := s.cluster c
  !k.retired && !(s.invs.any (fun v => v.cluster == c)) && k.waiting.isEmpty && k.dmaQ.isEmpty && k.streamQ.isEmpty &&
    (List.range 4).all (fun i => (s.engine (4 * c + i)).queue.isEmpty) && !(s.clusterScrubbed c)

/-- R426: nothing of a partition that is not FREE lies on the plane. -/
def planeIdle (s : State) (k : Nat) : Bool :=
  s.boot.dies.contains k && !(s.conf.parts.any (fun r => onPlane r k)) && !(s.awaiting.any (fun x => onPlane x.1 k))

/-- R427, less R424. -/
def deviceIdle (s : State) : Bool :=
  s.conf.power.any (fun r => r.deepest == 4 && r.standby) && (List.range 64).all (fun p => p == 0 || (s.part p).state == .free) &&
    s.flash.update.isNone && s.mirrors.all (fun m => m.job.isNone)

/-- A unit is idle (R425); a cluster or a plane that lies in a deeper unit's sleep is not asked. -/
def unitIdle (s : State) (u : PowerUnit) : Bool := match u with
  | .cluster c => inRun s.power.device && inRun (s.power.planes.getD (c.val / 4) .run) && s.clusterIdle c
  | .plane k => inRun s.power.device && s.planeIdle k
  | .device => s.deviceIdle

/-- Starts of maintenance windows yet to come, in ns (R425). -/
def windowTimes (s : State) : List Nat := ((((s.conf.power.map (·.windows)).getD []).map Prod.fst).map (· * nsPerSec)).filter (fun t => decide (s.now < t))

/-- The next openings of gates that a partition owns (R269, R425). -/
def ownedOpenings (s : State) (p : Nat) : List Nat :=
  s.conf.gates.flatMap (fun g => match s.gateAt g.port s.fineNow with
    | some (t, spent) => (ownedStarts p t).map ((s.fineNow - spent) / 2 ^ 28 + ·)
    | none => [])

/-- Known events of a unit, in ns of Quartz time (R425). -/
def knownEvents (s : State) (u : PowerUnit) : List Nat := match u with
  | .cluster c =>
    (match s.clusterHolder c with
     | some p => ((s.part p).hint.toList.map (fun h => h.1 * nsPerSec + h.2)) ++ s.ownedOpenings p
     | none => []) ++ s.windowTimes
  | .plane _ => s.windowTimes
  | .device => s.windowTimes ++ (([0, 1, 2, 3] : List Nat).filterMap s.quartz.target).map (fun t => t.1 * nsPerSec + t.2)

/-- Time from now to a unit's next known event; none when it has no known event (R424). -/
def nextEvent (s : State) (u : PowerUnit) : Option Nat := (s.knownEvents u).min?.map (· - s.now)

/-- Units of a device. -/
def allUnits : List PowerUnit :=
  (List.finRange 16).map PowerUnit.cluster ++ (List.finRange 4).map PowerUnit.plane ++ [.device]

/-- Comparators 4 to 15 hold the earliest known events yet to come, in time order (R375): kept so in every KCLK cycle, and at every
choice. -/
def armKnown (s : State) : State :=
  let ts := (sortBy (fun a b => decide (a ≤ b)) ((allUnits.flatMap s.knownEvents).filter (fun t => decide (s.now < t)))).eraseDups
  { s with quartz := (List.range 12).foldl (fun (q : Quartz) (i : Nat) =>
      if q.target (4 + i) == (ts[i]?).map secNs then q else q.arm (4 + i) ((ts[i]?).map secNs)) s.quartz }

/-- POWER_STATE_CHOOSE (R424, R425): an idle unit enters the deepest state that fits, or wakes when what is left before its next
event is no more than its margin and wake time. -/
def chooseState (s : State) (u : PowerUnit) : State :=
  let x := s.unitPower u
  if !(s.boot.phase == .ready && s.unitIdle u) || x.entering.isSome || x.waking || x.cause then s
  else
    let s := s.armKnown
    let d := s.nextEvent u
    let l := s.powerLimits
    match deepestFit u l.1 l.2 d with
    | some t =>
      if x.state < t then (s.setUnitPower u { x with entering := some t }).hand (.powerEntryDone u)
      else s
    | none => if x.state != 0 && d.any (fun y => decide (y ≤ l.2 + wakeTime x.state)) then s.needUnit u else s

/-! ### Entry -/

/-- A plane in A3 keeps nothing: its ports go down, and its clusters lose their memories (R423). -/
def foldPlane (s : State) (k : Nat) : State :=
  let s := (List.range 16).foldl (fun (s : State) (i : Nat) => (s.updPort (16 * k + i) (fun _ => .reset)).flushPort (16 * k + i)) s
  let s := (List.range 64).foldl (fun (s : State) (i : Nat) => s.updCore (64 * k + i) blankCore) s
  (List.range 4).foldl (fun (s : State) (i : Nat) => s.updCluster (4 * k + i) bareCluster) s

/-- A device in Watch keeps what the keep island holds; every stream and peal is dropped without a RESET, and the line is dark
(R423, R427). -/
def enterWatch (s : State) : State :=
  let k := ((s.keys.slots.map KeySlot.slot).foldl eraseKeys s).keys
  { State.reset with
    pending := s.pending, freeCtr := s.freeCtr, cycle := s.cycle, out := s.out, quartz := s.quartz, boot := s.boot, fixed := s.fixed,
    flash := s.flash, owner := s.owner, debugScope := s.debugScope, debugPending := s.debugPending, jtag := s.jtag, conf := s.conf, ctrs := s.ctrs,
    events := s.events, lines := Vector.replicate 16 (lineAfterReset s.quartz.secs),
    parts := s.parts.map (fun q => { PartState.reset with state := q.state, reloadNumber := q.reloadNumber, reload := q.reload }),
    slices := s.slices.map (fun x => { x with early := [] }),
    clusters := s.clusters.map bareCluster, engines := s.engines.map (fun e => ⟨[], e.faulty⟩), cores := s.cores.map blankCore,
    keys := { k with blocks := [], bulk := [], partner := none },
    partnerAnswer := s.partnerAnswer, tocsin := s.tocsin, mail := s.mail, power := s.power }

/-- POWER_ENTRY_DONE (R423, R428): a unit with a wake cause pending wakes at once. -/
def entryDone (s : State) (u : PowerUnit) : State :=
  let x := s.unitPower u
  match x.entering with
  | none => s
  | some t =>
    let s := match u with
      | .cluster _ => s
      | .plane k => s.foldPlane k
      | .device => s.enterWatch
    let s := (s.setUnitPower u ⟨t, none, false, false⟩).powerEvent u x.state t
    if x.cause then s.needUnit u else s

/-! ### Wakes -/

/-- A plane is back: its memories are zero and its ports serve again (R383, R423). -/
def unfoldPlane (s : State) (k : Nat) : State :=
  (List.range 16).foldl (fun (s : State) (i : Nat) => s.updPort (16 * k + i) (fun x => { x with inService := s.localGood (16 * k + i) })) s

/-- WAKE_DONE of a cluster or a plane (R428): its work goes on; reloads that waited for it are applied (R426). -/
def wakeEnds (s : State) (u : PowerUnit) : State :=
  let x := s.unitPower u
  if !x.waking then s
  else match u with
    | .cluster c =>
      let s := s.setUnitPower u .run
      if (s.cluster c).waiting.isEmpty then s else s.hand (.invocationStart c)
    | .plane k => (((s.unfoldPlane k).setUnitPower u .run).powerEvent u x.state 0).applyAwake
    | .device => s

/-- The tests of a wake from Watch end with less than data service (R397, R429). -/
def wakeVisibility (s : State) (kind : Nat) : State :=
  ({ s with boot := { s.boot with phase := .visibility } } : State).serviceEvent 2 kind none

/-- The wake's work on partition 0: its memories are zero, its key slots installed; slices with a group to substitute have no open
peal (R29, R383, R429). -/
def wakePart (s : State) : State :=
  let s := [0, 1, 2, 3].foldl closeSlice s
  if (s.conf.partOf 0).isSome then
    let s := s.bringUp 0
    (s.installSlots 0).getD s
  else s

/-- WATCH_WAKE_DONE (R429): the root PLL that last served is tried first, then the retests of paths, stacks and cipher cores. -/
def watchWake (s : State) (r : StageResult) : State :=
  if !(s.power.device.state == 4 && s.power.device.waking) then s
  else
    let s := (s.setUnitPower .device .run).powerEvent .device 4 0
    let x := s.lockPll [s.boot.pllSel, 1 - s.boot.pllSel] (fun k => if k == 0 then r.pll0 else r.pll1)
    if !x.2 then x.1.wakeVisibility 3
    else
      let s := ((x.1.testPaths r).testStacks r).testCipher r
      match s.serviceLack with
      | some k => s.wakeVisibility k
      | none => s.openPorts.wakePart.openLines.resetBuckets.applyAwake

/-- THROTTLE event (R432, R478). -/
def throttleEvent (s : State) (byTemperature : Bool) (start : Nat) : State :=
  s.raise 0x0A01 none (oct (if byTemperature then 2 else 1) ++ oct start)

end State

/-! ### Meanings -/

/-- POWER_STATE_CHOOSE (R424). -/
def execPowerStateChoose (u : PowerUnit) (s : State) : Host.Outcome State Fault Refusal := .next (s.chooseState u)

/-- POWER_ENTRY_DONE (R428). -/
def execPowerEntryDone (u : PowerUnit) (s : State) : Host.Outcome State Fault Refusal := .next (s.entryDone u)

/-- WAKE_TIMER (R424). -/
def execWakeTimer (u : PowerUnit) (s : State) : Host.Outcome State Fault Refusal := .next (s.needUnit u)

/-- WAKE_DONE (R428). -/
def execWakeDone (u : PowerUnit) (s : State) : Host.Outcome State Fault Refusal := .next (s.wakeEnds u)

/-- WATCH_WAKE_DONE (R429). -/
def execWatchWakeDone (r : StageResult) (s : State) : Host.Outcome State Fault Refusal := .next (s.watchWake r)

/-- LINE_SIGNAL_WAKE (R430): level comparators 0 and 1 watch the enabled line ports. -/
def execLineSignalWake (m : LinePort) (s : State) : Host.Outcome State Fault Refusal :=
  .next (if ((s.conf.lineOf m).map (·.enabled)).getD false then s.wakeDevice else s)

/-- TEMPERATURE_WAKE (R430): level comparator 2, at the threshold of the POWER record. -/
def execTemperatureWake (temp : Int) (s : State) : Host.Outcome State Fault Refusal :=
  .next (if s.conf.power.any (fun r => decide (r.wakeTemp ≤ temp)) then s.wakeDevice else s)

/-- WAKE (R430, R431): in any state but Watch the record does nothing but draw its reply. -/
def execWake (s : State) : Host.Outcome State Fault Refusal :=
  .next ((if s.power.device.state == 4 then s.wakeDevice else s).reply 0x0D0D .ok [])

/-- MAINTENANCE_WINDOW (R93, R375, R430): comparator 2 is armed for the next start or end, and wakes the device from Watch. -/
def execMaintenanceWindow (s : State) : Host.Outcome State Fault Refusal := .next s.armMaintenance.wakeDevice

/-- THROTTLE_START (R432): a period starts with an event; it changes rates and no result. -/
def execThrottleStart (byTemperature : Bool) (s : State) : Host.Outcome State Fault Refusal :=
  if s.power.throttle.isSome then .next s
  else
    let s : State := { s with power := { s.power with throttle := some byTemperature } }
    .next (s.throttleEvent byTemperature 1)

/-- THROTTLE_END (R432): the period ends with an event, under the cause that it started with. -/
def execThrottleEnd (s : State) : Host.Outcome State Fault Refusal :=
  match s.power.throttle with
  | none => .next s
  | some b =>
    let s : State := { s with power := { s.power with throttle := none } }
    .next (s.throttleEvent b 0)

/-- THERM_N_ASSERT (R473): at 115 °C or above, on any die. -/
def execThermNAssert (_die : DieId) (temp : Int) (s : State) : Host.Outcome State Fault Refusal :=
  .next (if 115 ≤ temp then { s with power := { s.power with thermN := true } } else s)

/-- THERM_N_RELEASE (R473): the readings of the six dies are all below 110 °C. -/
def execThermNRelease (temps : List Int) (s : State) : Host.Outcome State Fault Refusal :=
  .next (if temps.all (fun t => decide (t < 110)) && decide (6 ≤ temps.length) then { s with power := { s.power with thermN := false } } else s)

end Sys2Proof.Machine
end

