-- ==== Sys2Proof/Machine/Dispatch.lean ====
section
/-! DEFINITION. Dispatch: one arm per command, each one direct call of its meaning. -/

namespace Sys2Proof.Machine

def exec (i : Instr) (s : State) : Host.Outcome State Fault Refusal :=
  match i with
  | .startBegin => Sys2Proof.Machine.execStartBegin s
  | .startStageEnd r => Sys2Proof.Machine.execStartStageEnd r s
  | .startStageLimit r => Sys2Proof.Machine.execStartStageLimit r s
  | .resetEnter => Sys2Proof.Machine.execResetEnter s
  | .resetColdEscalate => Sys2Proof.Machine.execResetColdEscalate s
  | .resetNRise => Sys2Proof.Machine.execResetNRise s
  | .pwrgoodFall => Sys2Proof.Machine.execPwrgoodFall s
  | .railFault rail => Sys2Proof.Machine.execRailFault rail s
  | .keepPowerLoss => Sys2Proof.Machine.execKeepPowerLoss s
  | .heldReport => Sys2Proof.Machine.execHeldReport s
  | .pllLockLoss => Sys2Proof.Machine.execPllLockLoss s
  | .refclkLoss => Sys2Proof.Machine.execRefclkLoss s
  | .refclkReturn => Sys2Proof.Machine.execRefclkReturn s
  | .refclkReturnWarmReset => Sys2Proof.Machine.execRefclkReturnWarmReset s
  | .unitFault u => Sys2Proof.Machine.execUnitFault u s
  | .adderGroupFault slice use => Sys2Proof.Machine.execAdderGroupFault slice use s
  | .sliceSubstitute slice => Sys2Proof.Machine.execSliceSubstitute slice s
  | .localFrameRx port frame => Sys2Proof.Machine.execLocalFrameRx port frame s
  | .creditFrameRx port cumulative => Sys2Proof.Machine.execCreditFrameRx port cumulative s
  | .creditFrameTx port => Sys2Proof.Machine.execCreditFrameTx port s
  | .creditTimeout port => Sys2Proof.Machine.execCreditTimeout port s
  | .localLinkUp port => Sys2Proof.Machine.execLocalLinkUp port s
  | .localLinkDown port => Sys2Proof.Machine.execLocalLinkDown port s
  | .pealStart h b => Sys2Proof.Machine.execPealStart h b s
  | .pealStatus h q => Sys2Proof.Machine.execPealStatus h q s
  | .groupDefine h g => Sys2Proof.Machine.execGroupDefine h g s
  | .groupRemove h group => Sys2Proof.Machine.execGroupRemove h group s
  | .memPut h m data => Sys2Proof.Machine.execMemPut h m data s
  | .memGet h m => Sys2Proof.Machine.execMemGet h m s
  | .memAtomic h m a => Sys2Proof.Machine.execMemAtomic h m a s
  | .soAdd h id amount => Sys2Proof.Machine.execSoAdd h id amount s
  | .soWaitGe h id target timeout => Sys2Proof.Machine.execSoWaitGe h id target timeout s
  | .soReset h id => Sys2Proof.Machine.execSoReset h id s
  | .soRead h id => Sys2Proof.Machine.execSoRead h id s
  | .soWaitTimeout desc => Sys2Proof.Machine.execSoWaitTimeout desc s
  | .progLoadBegin h b => Sys2Proof.Machine.execProgLoadBegin h b s
  | .progLoadData h index offset data => Sys2Proof.Machine.execProgLoadData h index offset data s
  | .progLoadEnd h index sig => Sys2Proof.Machine.execProgLoadEnd h index sig s
  | .progLoadTimeout p => Sys2Proof.Machine.execProgLoadTimeout p s
  | .progImageSwap p index => Sys2Proof.Machine.execProgImageSwap p index s
  | .progInvoke h b => Sys2Proof.Machine.execProgInvoke h b s
  | .tensorPlace h t => Sys2Proof.Machine.execTensorPlace h t s
  | .tensorExpand h t => Sys2Proof.Machine.execTensorExpand h t s
  | .tensorLoadDone die => Sys2Proof.Machine.execTensorLoadDone die s
  | .stepEnd h step => Sys2Proof.Machine.execStepEnd h step s
  | .stepBoundary p => Sys2Proof.Machine.execStepBoundary p s
  | .counterRead h set first count => Sys2Proof.Machine.execCounterRead h set first count s
  | .hintNextEvent h secs ns => Sys2Proof.Machine.execHintNextEvent h secs ns s
  | .hintLapse p => Sys2Proof.Machine.execHintLapse p s
  | .fenceRelease desc => Sys2Proof.Machine.execFenceRelease desc s
  | .nodeCompletionRx port vlan c body => Sys2Proof.Machine.execNodeCompletionRx port vlan c body s
  | .nodeOpTimeout tag => Sys2Proof.Machine.execNodeOpTimeout tag s
  | .contributionReadDone p group peal chunk exponentPass rank => Sys2Proof.Machine.execContributionReadDone p group peal chunk exponentPass rank s
  | .resultWriteDone p group peal chunk rank => Sys2Proof.Machine.execResultWriteDone p group peal chunk rank s
  | .exponentUp p m => Sys2Proof.Machine.execExponentUp p m s
  | .exponentDown p m => Sys2Proof.Machine.execExponentDown p m s
  | .partialUp p m => Sys2Proof.Machine.execPartialUp p m s
  | .resultDown p m => Sys2Proof.Machine.execResultDown p m s
  | .abort p m => Sys2Proof.Machine.execAbort p m s
  | .pealDeadline p group peal => Sys2Proof.Machine.execPealDeadline p group peal s
  | .pealRemoteDeadline p group peal => Sys2Proof.Machine.execPealRemoteDeadline p group peal s
  | .projectionDone invocation => Sys2Proof.Machine.execProjectionDone invocation s
  | .invocationStart c => Sys2Proof.Machine.execInvocationStart c s
  | .taborInstruction core => Sys2Proof.Machine.execTaborInstruction core s
  | .ecallEndCore core => Sys2Proof.Machine.execEcallEndCore core s
  | .ecallEndInvocation core => Sys2Proof.Machine.execEcallEndInvocation core s
  | .invocationEnd invocation => Sys2Proof.Machine.execInvocationEnd invocation s
  | .watchdogExpiry core => Sys2Proof.Machine.execWatchdogExpiry core s
  | .registerWrite t v => Sys2Proof.Machine.execRegisterWrite t v s
  | .ssum core f => Sys2Proof.Machine.execSsum core f s
  | .smap core f => Sys2Proof.Machine.execSmap core f s
  | .sscan core f => Sys2Proof.Machine.execSscan core f s
  | .sgather core f => Sys2Proof.Machine.execSgather core f s
  | .sfilter core f => Sys2Proof.Machine.execSfilter core f s
  | .ssort core f => Sys2Proof.Machine.execSsort core f s
  | .smerge core f => Sys2Proof.Machine.execSmerge core f s
  | .streamInstructionDone c => Sys2Proof.Machine.execStreamInstructionDone c s
  | .swait core rd => Sys2Proof.Machine.execSwait core rd s
  | .sdma core rs1 rd => Sys2Proof.Machine.execSdma core rs1 rd s
  | .dwait core rs1 rd => Sys2Proof.Machine.execDwait core rs1 rd s
  | .dmaDone c => Sys2Proof.Machine.execDmaDone c s
  | .msub core rs1 rd => Sys2Proof.Machine.execMsub core rs1 rd s
  | .mwait core rs1 rd => Sys2Proof.Machine.execMwait core rs1 rd s
  | .matrixCommandDone e => Sys2Proof.Machine.execMatrixCommandDone e s
  | .cvlock core rd => Sys2Proof.Machine.execCvlock core rd s
  | .cvunlock core rd => Sys2Proof.Machine.execCvunlock core rd s
  | .cvCtrlWrite core width v => Sys2Proof.Machine.execCvCtrlWrite core width v s
  | .cvDataWrite core width v => Sys2Proof.Machine.execCvDataWrite core width v s
  | .cvResultRead core rd => Sys2Proof.Machine.execCvResultRead core rd s
  | .itemAdmission item => Sys2Proof.Machine.execItemAdmission item s
  | .writerAdmit out => Sys2Proof.Machine.execWriterAdmit out s
  | .itemWriteDone item => Sys2Proof.Machine.execItemWriteDone item s
  | .refcountDecrement die pool ptr => Sys2Proof.Machine.execRefcountDecrement die pool ptr s
  | .outputSelect port => Sys2Proof.Machine.execOutputSelect port s
  | .lineFrameSlot m => Sys2Proof.Machine.execLineFrameSlot m s
  | .sealDone m late => Sys2Proof.Machine.execSealDone m late s
  | .lineFrameRx m r => Sys2Proof.Machine.execLineFrameRx m r s
  | .dlosDeclare m => Sys2Proof.Machine.execDlosDeclare m s
  | .dlosClear m => Sys2Proof.Machine.execDlosClear m s
  | .dlofDeclare m => Sys2Proof.Machine.execDlofDeclare m s
  | .dlofClear m => Sys2Proof.Machine.execDlofClear m s
  | .dlomDeclare m => Sys2Proof.Machine.execDlomDeclare m s
  | .dlomClear m => Sys2Proof.Machine.execDlomClear m s
  | .mchSerialFrame n txd => Sys2Proof.Machine.execMchSerialFrame n txd s
  | .pmSecond => Sys2Proof.Machine.execPmSecond s
  | .dataSegmentRx m h body => Sys2Proof.Machine.execDataSegmentRx m h body s
  | .ackBlockRx m records => Sys2Proof.Machine.execAckBlockRx m records s
  | .streamOpenRx m h b => Sys2Proof.Machine.execStreamOpenRx m h b s
  | .streamResetRx m h b => Sys2Proof.Machine.execStreamResetRx m h b s
  | .remoteOperationRx p site item => Sys2Proof.Machine.execRemoteOperationRx p site item s
  | .streamCompletionRx p c body => Sys2Proof.Machine.execStreamCompletionRx p c body s
  | .ackDelayExpiry k => Sys2Proof.Machine.execAckDelayExpiry k s
  | .retxTimer k => Sys2Proof.Machine.execRetxTimer k s
  | .streamAgeFail k => Sys2Proof.Machine.execStreamAgeFail k s
  | .reassemblyBufferGrant k => Sys2Proof.Machine.execReassemblyBufferGrant k s
  | .acceptedContextFree k => Sys2Proof.Machine.execAcceptedContextFree k s
  | .keyGrantRequest die slot => Sys2Proof.Machine.execKeyGrantRequest die slot s
  | .lineKeyActivation m => Sys2Proof.Machine.execLineKeyActivation m s
  | .entropyTestFail aptFailed => Sys2Proof.Machine.execEntropyTestFail aptFailed s
  | .entropyRetest samples => Sys2Proof.Machine.execEntropyRetest samples s
  | .drbgReseed samples => Sys2Proof.Machine.execDrbgReseed samples s
  | .keyWrap record => Sys2Proof.Machine.execKeyWrap record s
  | .timeSet record => Sys2Proof.Machine.execTimeSet record s
  | .timeSetPpsTimeout => Sys2Proof.Machine.execTimeSetPpsTimeout s
  | .slewComplete => Sys2Proof.Machine.execSlewComplete s
  | .ppsInEdge edge => Sys2Proof.Machine.execPpsInEdge edge s
  | .ppsHoldoverTimeout => Sys2Proof.Machine.execPpsHoldoverTimeout s
  | .ppsOutEdge rise => Sys2Proof.Machine.execPpsOutEdge rise s
  | .timeChallengeExpiry => Sys2Proof.Machine.execTimeChallengeExpiry s
  | .ownerBind record => Sys2Proof.Machine.execOwnerBind record s
  | .debugChallenge => Sys2Proof.Machine.execDebugChallenge s
  | .timeChallenge => Sys2Proof.Machine.execTimeChallenge s
  | .debugUnlock record => Sys2Proof.Machine.execDebugUnlock record s
  | .jtagBypass tdi => Sys2Proof.Machine.execJtagBypass tdi s
  | .jtagIdcode => Sys2Proof.Machine.execJtagIdcode s
  | .jtagSamplePreload pins shiftIn => Sys2Proof.Machine.execJtagSamplePreload pins shiftIn s
  | .jtagExtest => Sys2Proof.Machine.execJtagExtest s
  | .imageBegin header => Sys2Proof.Machine.execImageBegin header s
  | .slotEraseDone => Sys2Proof.Machine.execSlotEraseDone s
  | .imageData offset data => Sys2Proof.Machine.execImageData offset data s
  | .imageEnd => Sys2Proof.Machine.execImageEnd s
  | .imageUpdateTimeout => Sys2Proof.Machine.execImageUpdateTimeout s
  | .secondDeviceCopyDone ok => Sys2Proof.Machine.execSecondDeviceCopyDone ok s
  | .backgroundCopy => Sys2Proof.Machine.execBackgroundCopy s
  | .criticalLogWrite => Sys2Proof.Machine.execCriticalLogWrite s
  | .reload record => Sys2Proof.Machine.execReload record s
  | .release record => Sys2Proof.Machine.execRelease record s
  | .partitionBringupDone p => Sys2Proof.Machine.execPartitionBringupDone p s
  | .reloadDone p => Sys2Proof.Machine.execReloadDone p s
  | .scrubDone p => Sys2Proof.Machine.execScrubDone p s
  | .windowSwitch p => Sys2Proof.Machine.execWindowSwitch p s
  | .mirrorCommit p => Sys2Proof.Machine.execMirrorCommit p s
  | .mirrorTimeout p => Sys2Proof.Machine.execMirrorTimeout p s
  | .mirrorLagProbe p => Sys2Proof.Machine.execMirrorLagProbe p s
  | .heldBackProbe p => Sys2Proof.Machine.execHeldBackProbe p s
  | .admitRestore target => Sys2Proof.Machine.execAdmitRestore target s
  | .admitDiscard target => Sys2Proof.Machine.execAdmitDiscard target s
  | .restoreDone p => Sys2Proof.Machine.execRestoreDone p s
  | .watchdogWrite v => Sys2Proof.Machine.execWatchdogWrite v s
  | .fwWatchdogExpiry => Sys2Proof.Machine.execFwWatchdogExpiry s
  | .fwLockstepFault => Sys2Proof.Machine.execFwLockstepFault s
  | .heartbeat => Sys2Proof.Machine.execHeartbeat s
  | .hello port f => Sys2Proof.Machine.execHello port f s
  | .proof port f => Sys2Proof.Machine.execProof port f s
  | .proofTimeout session => Sys2Proof.Machine.execProofTimeout session s
  | .record port f => Sys2Proof.Machine.execRecord port f s
  | .close port f => Sys2Proof.Machine.execClose port f s
  | .sessionIdleTimeout session => Sys2Proof.Machine.execSessionIdleTimeout session s
  | .sessionCertExpiry session => Sys2Proof.Machine.execSessionCertExpiry session s
  | .go => Sys2Proof.Machine.execGo s
  | .read addr count select => Sys2Proof.Machine.execRead addr count select s
  | .write addr value => Sys2Proof.Machine.execWrite addr value s
  | .readSeqWrite value => Sys2Proof.Machine.execReadSeqWrite value s
  | .resetWarm => Sys2Proof.Machine.execResetWarm s
  | .resetCold => Sys2Proof.Machine.execResetCold s
  | .eventQueueDrain => Sys2Proof.Machine.execEventQueueDrain s
  | .powerStateChoose u => Sys2Proof.Machine.execPowerStateChoose u s
  | .powerEntryDone u => Sys2Proof.Machine.execPowerEntryDone u s
  | .wakeTimer u => Sys2Proof.Machine.execWakeTimer u s
  | .wakeDone u => Sys2Proof.Machine.execWakeDone u s
  | .watchWakeDone r => Sys2Proof.Machine.execWatchWakeDone r s
  | .lineSignalWake m => Sys2Proof.Machine.execLineSignalWake m s
  | .temperatureWake temp => Sys2Proof.Machine.execTemperatureWake temp s
  | .wake => Sys2Proof.Machine.execWake s
  | .maintenanceWindow => Sys2Proof.Machine.execMaintenanceWindow s
  | .throttleStart byTemperature => Sys2Proof.Machine.execThrottleStart byTemperature s
  | .throttleEnd => Sys2Proof.Machine.execThrottleEnd s
  | .thermNAssert die temp => Sys2Proof.Machine.execThermNAssert die temp s
  | .thermNRelease temps => Sys2Proof.Machine.execThermNRelease temps s
  | .tocsinFrameDrop port frame => Sys2Proof.Machine.execTocsinFrameDrop port frame s
  | .mgmtLinkChange port up => Sys2Proof.Machine.execMgmtLinkChange port up s
  | .bulkMessageDone id => Sys2Proof.Machine.execBulkMessageDone id s
  | .checkValueUnitFree c => Sys2Proof.Machine.execCheckValueUnitFree c s
  | .flashProgramDone device => Sys2Proof.Machine.execFlashProgramDone device s

end Sys2Proof.Machine
end

