-- ==== Sys2Proof/Machine/Tick.lean ====
section
/-! DEFINITION. One KCLK cycle: what passes with time alone, done when no command and no handed work waits (log entry 5). -/

namespace Sys2Proof.Machine

/-- PCLK cycles of one KCLK cycle on a core that runs an invocation in a cluster in A0 (R30, R195). -/
def clockCore (c : Core) : Core := if c.inv.isSome && c.running then { c with cycles := c.cycles + 12 } else c

/-- One KCLK cycle (R30, R72, R259, R273, R277, R296, R331, R358, R438). Nothing counts while VDD_KEEP is lost (R361). -/
def tick (s : State) : State :=
  if !s.boot.keepGood then s
  else
    let secs := s.quartz.secs
    let s := s.debugEnds.startBulk
    let s := s.pushBufs.tickQuartz.armKnown.tickShapers.tickOutputs
    let s : State := { s with cores := s.cores.map clockCore }
    let s := if s.quartz.secs == secs then s else s.handOnce .pmSecond
    let s := if s.logReady then s.handOnce .criticalLogWrite else s
    if s.events.queue.isEmpty then s else s.handOnce .eventQueueDrain

end Sys2Proof.Machine
end

