-- ==== Sys2Proof/Machine/Step.lean ====
section
/-! DEFINITION. One step: the command at the front of the queue; with none waiting, work handed on; with none of that
either, one KCLK cycle (log entry 5). -/

namespace Sys2Proof.Machine

/-- One step (log entry 5). -/
def step (s : State) : Host.Outcome State Fault Refusal :=
  match s.pending with
  | i :: rest => exec i { s with pending := rest }
  | [] =>
    match s.handed with
    | (r, i) :: rest =>
      match exec i { s with handed := rest, resuming := r } with
      | .next t => .next { t with resuming := none }
      | .fault f => .fault f
      | .refused f => .refused f
    | [] => .next (tick s)

/-- `s` with the command that a word spells put at the front of its queue; no row of the table has bits, so none does. -/
def State.withFetchWord (s : State) (nbits w : Nat) : State :=
  match decodeTableWord nbits w with
  | some i => { s with pending := i :: s.pending }
  | none => s

end Sys2Proof.Machine
end

