-- ==== Sys2Proof/Safety.lean ====
section
/-! DEFINITION. What statements about the device are made in terms of: memories in canonical form, legal owner fuses, and what one
command does to everything but the queue. -/

namespace Sys2Proof.Machine

/-- Every memory of a Tabor core is in canonical form (R195). -/
def coreMemWf (c : Core) : Bool := memWf 0 c.imem && memWf 0 c.dmem

/-- Every memory of the device is in canonical form: Basalt, scratch, the cores' memories, both Slate flash devices and the record
buffer of the command mailbox. -/
def Memory.wf (s : State) : Bool :=
  memWf 0 s.basalt && s.clusters.all (fun c => memWf 0 c.scratch) && s.cores.all coreMemWf &&
    s.flash.devs.all (fun d => memWf 0xFF d.cells) && memWf 0 s.mail.buffer

/-- The owner fuses hold a state that R68 and R70 can reach: two slots, the second blank while the first is. -/
def ownerLegal : List OwnerSlot → Bool
  | [a, b] => a != .blank || b == .blank
  | _ => false

/-- A fuse slot once used stays as it is (R67, R69, R70). -/
def fusesKept (a b : List OwnerSlot) : Bool := (List.range 2).all (fun k => a.getD k .void == .blank || b.getD k .void == a.getD k .void)

/-- A command answers a next state, and what holds of that state. -/
def Completes (c : Instr) (s : State) (post : State → Prop) : Prop := ∃ t, exec c s = .next t ∧ post t

/-! ### Descriptors -/

/-- Accepted descriptors and pending waits carry numbers already given out. -/
abbrev descsFresh (s : State) : Prop := (∀ d ∈ s.descs, d.id < s.nextDesc) ∧ ∀ w ∈ s.waits, w.desc < s.nextDesc

/-- A descriptor that has just arrived for partition `p` starts at once when its form and its resources allow it: a mapped pair, an
ACTIVE partition with no STEP_END waiting, nothing that a fence waits for, room among the accepted ones (R43, R117, R126, R138). -/
abbrev startsAtOnce (s : State) (h : DescHdr) (p : Nat) : Prop :=
  s.resuming = none ∧ s.ownerOf h.port h.vlan h.owner = some p ∧ (s.part p).state = .active ∧ (s.part p).stepEnd = none ∧
    s.waitsFor h = [] ∧ s.accepted p < 4096

/-- Between `s` and `t` a completion was offered to the switch core: to the source of the descriptor, on its pair, in its class,
with its opcode, tag and stream ID (R125). -/
abbrev answered (s t : State) (p : Nat) (h : DescHdr) (op : Nat) (st : Status) (body : Octets) : Prop :=
  ∃ i ∈ t.sw.items, s.sw.nextItem ≤ i.id ∧ i.part = p ∧ i.cls = h.cls.val ∧ i.outs = [(h.port.val, h.vlan)] ∧
    i.load = .frame h.src none 0x88B5 (yuvBytes 2 op (statusCode st) h.tag.toNat h.stream body)

/-- `t` is `s` but for what every descriptor on its way may touch: the switch core, work handed on, the books of descriptors and
waits, the credit of the local ports. -/
abbrev flowOnly (s t : State) : Prop :=
  t = { s with sw := t.sw, handed := t.handed, descs := t.descs, nextDesc := t.nextDesc, waits := t.waits, ports := t.ports }

/-- One octet of a device-local space: scratch of a cluster, or Basalt. -/
def localByte (s : State) (sp : Space) (cluster : ClusterId) (a : Nat) : Byte :=
  if sp == .scratch then memByte 0 (s.cluster cluster).scratch a else memByte 0 s.basalt a

/-- An address of a device-local space lies in the range that a memory operation names. -/
def inRange (m : MemOp) (sp : Space) (cluster : ClusterId) (a : Nat) : Bool :=
  sp == m.space && (sp != .scratch || cluster.val == m.cluster) && decide (m.addr ≤ a) && decide (a < m.addr + m.length)

/-- A matrix command that is not waited for reads octets of the range (R235). -/
def matrixReads (s : State) (m : MemOp) : Bool :=
  (s.cores.toList.flatMap Core.matOpen).any (fun w => !w.raced && w.reads.any (fun r =>
    r.1 == m.space && (m.space != .scratch || r.2.1 == m.cluster) && rangesMeet (r.2.2.1, r.2.2.2) (m.addr, m.length)))

/-- A matrix command that is not waited for writes octets of the range (R235). -/
def matrixWrites (s : State) (m : MemOp) : Bool :=
  (s.cores.toList.flatMap Core.matOpen).any (fun w => !w.raced && m.space == .scratch && w.engine / 4 == m.cluster &&
    rangesMeet (w.c, 16384) (m.addr, m.length))

/-- A memory operation that has arrived, is well formed, and passes the checks of R46 and R64 with nothing to wait for: no accepted
descriptor is held (R133). -/
abbrev memRuns (s : State) (h : DescHdr) (m : MemOp) (p : Nat) (x : Rights) (writes : Bool) : Prop :=
  startsAtOnce s h p ∧ descsFresh s ∧ memFormBad s h m = false ∧ s.memCheck p h.stream m x = none ∧ s.memHeld p m writes = false ∧
    ∀ d ∈ s.descs, s.notStarted d = false

/-- Between `s` and `t` the open peal `pl` failed with a status: it is open no more, it is retained as FAILED with that status, and
every descriptor of its members is answered with it, with peal state 6 (R153, R154, R160). -/
def pealFailed (s t : State) (p gid n : Nat) (pl : Peal) (st : Status) : Prop :=
  t.peal p gid n = none ∧
  (∀ g, t.group p gid = some g → ∃ r ∈ g.retained, r.number = n ∧ r.status = st ∧ r.failed = true) ∧
  ∀ m ∈ pl.members, t.desc m.desc = none ∧ ∀ d, s.desc m.desc = some d → d.opcode = 0x01 →
    answered s t d.part d.hdr 0x01 st (pealBody n 6 pl.total)

/-! ### Tabor cores -/

/-- A core that can execute has an instruction of `len` octets at its pc, whole in instruction memory (R195, R196). -/
abbrev fetches (s : State) (k : CoreId) (len : Nat) (i : Rv) : Prop :=
  s.coreReady k = true ∧ (s.core k).pc.toNat + len ≤ imemSize ∧ rvLength (leNat (memRead 0 (s.core k).imem (s.core k).pc.toNat 2)) = len ∧
    decodeRv (leNat (memRead 0 (s.core k).imem (s.core k).pc.toNat len)) = i

/-- A stream instruction of a core that can execute has an allowed form, its windows are covered, and its cluster's queue has room
(R203 to R206). -/
def streamReady (s : State) (core : CoreId) (op : StreamOp) (f : StreamFields) (v : Invocation) : Prop :=
  s.coreReady core = true ∧ s.invOf core = some v ∧ (s.cluster v.cluster).faulty = false ∧ s.windowsWait v.part = false ∧
    (s.cluster v.cluster).streamQ.length < 32 ∧ ∃ d a b,
      streamForm op f (fun i => (s.core core).windows.toList.getD i 0) = some (d, a, b) ∧
      (streamSources op a b).all (s.windowOk v .read) = true ∧ (streamDests op d b).all (s.windowOk v .write) = true

/-- A stream instruction joins the end of its cluster's queue with its windows and SSCALAR as they stand, and retires; nothing else of
any core or cluster changes, and no memory (R203, R206). -/
def streamIssued (s t : State) (core : CoreId) (op : StreamOp) (f : StreamFields) (v : Invocation) : Prop :=
  let w (i : Nat) : Word64 := (s.core core).windows.toList.getD i 0
  let j : StreamJob := ⟨core, v.id, op, f.strict, f.modifier, w f.rd, w f.rs1, w f.rs2, (s.core core).sscalar⟩
  t.clusters = (s.updCluster v.cluster (fun c => { c with streamQ := c.streamQ ++ [j] })).clusters ∧
    t.cores = (s.updCore core (fun c => c.retire 4)).cores ∧
    t = { s with clusters := t.clusters, cores := t.cores, invs := t.invs }

/-- No matrix command has been submitted and not waited for (R235). -/
abbrev noMatrixOpen (s : State) : Prop := ∀ c ∈ s.cores.toList, c.matOpen = []

/-- `len` octets at an address of scratch or Basalt are `x` in `t`, and every other octet of both spaces is as in `s`. -/
def onlyStored (s t : State) (sp : Space) (cluster addr : Nat) (x : Octets) : Prop :=
  (∀ k c n, inRange ⟨sp, cluster, x.length, addr⟩ k c n = true → localByte t k c n = x.getD (n - addr) 0) ∧
    ∀ k c n, inRange ⟨sp, cluster, x.length, addr⟩ k c n = false → k = .scratch ∨ k = .basalt → localByte t k c n = localByte s k c n

/-- A TENSOR_LOAD has joined the requests of its expander, and its descriptor stays accepted (R245). -/
def tensorQueued (s u : State) (p : Nat) (h : DescHdr) (expand : Bool) (t : TensorLoad) : Prop :=
  u.expander (expanderOf t) = s.expander (expanderOf t) ++ [⟨s.nextDesc, p, expand, h.port.val, h.stream, h.cls, t, none, false⟩] ∧
    (u.desc s.nextDesc).isSome = true ∧ flowOnly { s with expanders := u.expanders } u

/-! ### Line ports -/

/-- Between `s` and `t` line port `m` sent one basic frame, with a segment or with idle fill, and the counters of its transmitter went on
(R279 to R282, R288, R289). -/
def lineSent (s t : State) (m : LinePort) (seg : Option Octets) : Prop :=
  let x := (s.line m).tx
  let trace := ((s.conf.lineOf m).map LineRec.transmitted).getD []
  let mch := if x.mfas % 64 == 0 then octetAt (x.mfas / 64) x.chA else if x.mfas % 64 == 32 then octetAt (x.mfas / 64) x.chB else 0
  let o : Overhead :=
    { mfas := x.mfas, bip := x.bip, bdi := s.bdi m, bei := min x.bei 31, bue := min x.bue 15, tti := octetAt (x.mfas % 64) trace,
      mch := mch, pt := if seg.isSome then 1 else 0, otag := octetAt x.mfas x.otag, kep := x.kep }
  t.out = s.out ++ [.lineFrame m (laneCut (scrambleFrame (encodeFrame (infoArea o (seg.getD [])))))] ∧
    (t.line m).tx.mfas = (x.mfas + 1) % 256 ∧ (t.line m).tx.bip = bip16 (infoArea o (seg.getD [])) ∧ (t.line m).tx.bei = 0 ∧
    (t.line m).tx.bue = 0

/-- A line port in service, with no gate, no seal on its way and no late segment. -/
abbrev lineFree (s : State) (m : LinePort) : Prop :=
  s.lineUp m = true ∧ s.gate (64 + m.val) = none ∧ (s.line m).isoEntry = none ∧ (s.line m).sealing = none

/-- `t` is `s` but for what a frame of a line port may touch: what leaves, the line ports with their keys and what these draw, samples,
counters with their events, and work handed on. -/
abbrev lineOnly (s t : State) : Prop :=
  t = { s with
    out := t.out, lines := t.lines, handed := t.handed, snare := t.snare, ctrs := t.ctrs, events := t.events, keys := t.keys, boot := t.boot,
    freeCtr := t.freeCtr }

/-- A line port has no control segment, no retransmission and nothing queued (R265, R272). -/
abbrev lineQuiet (s : State) (m : LinePort) : Prop :=
  (s.line m).controls = [] ∧ (s.line m).retx = [] ∧ ∀ c < 8, s.queuedParts (64 + m.val) c = []

/-! ### Streams -/

/-- The header of a body names a stream of partition `p` and a slot of `p` whose current key opened it, with a salt that is not the
slot's own (R303, R308, R341). -/
abbrev bodyNamed (s : State) (h : SegHdr) (p : Nat) : Prop :=
  s.streamPart h.stream = some p ∧ ∃ k c, s.keySlot h.keySlot = some k ∧ k.part = p ∧ k.usage = 1 ∧ State.currentKey k = some c ∧
    h.epoch = State.epochOf k ∧ beNat c.2.1 ≠ h.salt

/-- The octets of a whole item in one piece (R307). -/
def wholePiece (kind : Nat) (x : Octets) : Octets := pieceBytes ⟨kind, true, true, x.length, x, none⟩

/-- A completion that R123 and R321 let through. -/
abbrev goodCompletion (x : Octets) : Prop :=
  1 ≤ x.length ∧ x.length ≤ 9654 ∧ octetAt 0 x = 1 ∧ octetAt 1 x = 2 ∧ completionBad x = false

/-- Numbers of descriptors, of the waits on them and of remote operations have been given out. -/
abbrev numbersGiven (s : State) : Prop := descsFresh s ∧ ∀ r ∈ s.remoteOps, r.id < s.nextRemote

/-- Between `s` and `t` the context `k` failed with a status: it is FAILED, holds nothing any more, and nothing of it waits on a line
port but a RESET (R322, R324). -/
def streamFailed (s t : State) (k : CtxKey) (st : Status) : Prop :=
  (∃ y, t.ctx k = some y ∧ y.state = .failed st ∧ y.held = [] ∧ y.ops = [] ∧ y.stored = []) ∧
    ∀ m : LinePort, (∀ x ∈ (t.line m).retx, x.1 ≠ k) ∧ (∀ w ∈ (t.line m).controls, w.ctx = k → w.reset.isSome = true) ∧
      (t.line m).rx = (s.line m).rx

/-! ### The command mailbox and the network -/

/-- The record in the mailbox has been answered with octets and a status, and the mailbox is free (R458, R460). -/
abbrev mailed (s t : State) (st : Status) (x : Octets) : Prop :=
  t.mail = { s.mail with status := statusCode st, reply := x, current := none }

/-- `t` is `s` but for what every answer to a record may touch: the mailbox, what follows in it, and the frame that carries the answer. -/
abbrev mailOnly (s t : State) : Prop := t = { s with mail := t.mail, handed := t.handed, tocsin := t.tocsin, out := t.out }

/-- A record was rejected with a status and an event, and had no other effect (R440, R460). -/
abbrev rejected (s t : State) (type : Nat) (st : Status) : Prop :=
  mailed s t st (replyBytes type st []) ∧ t.events = (s.raise 0x0302 none (State.oct (statusCode st) ++ leBytes 2 type)).events ∧
    mailOnly { s with events := t.events } t

/-- The books that every command keeps in order: numbers given out, 24 pools, 2 expanders, 2 flash devices (R76, R126, R244, R246). -/
abbrev booksInOrder (s : State) : Prop :=
  numbersGiven s ∧ s.sw.pools.length = 24 ∧ s.expanders.length = 2 ∧ s.flash.devs.length = 2

end Sys2Proof.Machine
end

