-- ==== Sys2Proof/WellFormed.lean ====
section
/-! DEFINITION. Which operand values a command may carry: the ranges that the formats of the spec give its fields. The meanings are
total; a well-formed command is one that the device's interfaces can form. -/

namespace Sys2Proof

/-- A number of `n` bits. -/
def fits (n v : Nat) : Bool := decide (v < 2 ^ n)

/-- Quartz seconds and nanoseconds in their ranges (R358). -/
def timeWf (secs ns : Nat) : Bool := fits 48 secs && decide (ns < 1000000000)

/-- A descriptor's header: VLAN ID 1 to 4,094 (R116), a 20-bit stream ID (R125), the units of a frame of at most 9,216 octets
(R118). -/
def DescHdr.wf (h : DescHdr) : Bool := decide (1 ≤ h.vlan) && decide (h.vlan ≤ 4094) && fits 20 h.stream && decide (h.units ≤ 36)

/-- The formats of a peal: codes 0x1 to 0x7 (R150, R172). -/
def pealFmtOk (f : Fmt) : Bool := f != .uint32 && f != .uint8

/-- PEAL_START (R150). -/
def PealStart.wf (b : PealStart) : Bool :=
  pealFmtOk b.inFmt && pealFmtOk b.outFmt && fits 12 b.group && fits 32 b.peal && fits 32 b.count && fits 32 b.root &&
    b.coord.length == 6 && b.coord.all (fits 8) && fits 14 b.sync && fits 64 b.src && fits 64 b.dst && fits 32 b.syncAmount &&
    (b.addSync || (b.sync == 0 && b.syncAmount == 0))

/-- PEAL_STATUS (R167). -/
def PealQuery.wf (q : PealQuery) : Bool := fits 12 q.group && fits 32 q.peal && fits 32 q.firstRank && fits 16 q.bits

/-- A group definition (R88, R144). -/
def GroupDef.wf (g : GroupDef) : Bool :=
  fits 12 g.group && fits 8 g.axisCount && fits 8 g.axisMask && fits 8 g.mode && fits 8 g.policy && fits 8 g.w && fits 8 g.p &&
    [g.axisOrder, g.low, g.high, g.stride].all (fun l => l.length == 6 && l.all (fits 8)) && fits 8 g.slice &&
    fits 32 g.deadline && fits 16 g.quorumMin && fits 16 g.proj

/-- A memory operation (R131). -/
def MemOp.wf (m : MemOp) : Bool := (if m.space == .scratch then fits 4 m.cluster else m.cluster == 0) && m.space != .coreData && fits 64 m.addr &&
    decide (1 ≤ m.length) && decide (m.length ≤ 8192)

/-- Atomic fields (R131, R134). -/
def AtomicArgs.wf (a : AtomicArgs) : Bool := (a.width == 4 || a.width == 8) && fits 64 a.a && fits 64 a.b && (a.op == .compareSwap || a.b == 0)

/-- PROG_LOAD BEGIN (R218). -/
def ProgBegin.wf (b : ProgBegin) : Bool :=
  fits 8 b.index && fits 16 b.clusters && fits 8 b.cores && fits 32 b.entry && fits 32 b.textLen && fits 32 b.dataLen &&
    fits 32 b.watchdog && b.pubKey.length == 97

/-- PROG_INVOKE (R220). -/
def ProgInvoke.wf (b : ProgInvoke) : Bool :=
  fits 8 b.index && (fits 4 b.cluster || b.cluster == 255) && fits 14 b.sync && fits 32 b.syncAmount && b.args.length == 8 &&
    (b.addSync || (b.sync == 0 && b.syncAmount == 0))

/-- TENSOR_LOAD (R242). -/
def TensorLoad.wf (t : TensorLoad) : Bool :=
  t.srcSpace != .coreData && t.dstSpace != .coreData && fits 8 t.srcCluster && fits 8 t.dstCluster && fits 64 t.src && fits 64 t.dst &&
    fits 32 t.capacity

/-- A completion's header (R123, R125). -/
def CompHdr.wf (c : CompHdr) : Bool := fits 8 c.opcode && fits 20 c.stream

/-- A Carillon message (R157). -/
def CarMsg.wf (m : CarMsg) : Bool :=
  fits 20 m.stream && fits 12 m.group && fits 32 m.fingerprint && fits 32 m.peal && fits 32 m.chunk && fits 8 m.sender &&
    fits 32 m.contributors && fits 32 m.length && fits 32 m.offset

/-- A segment header (R305). -/
def SegHdr.wf (h : SegHdr) : Bool :=
  fits 20 h.stream && fits 8 h.epoch && fits 32 h.seq && fits 16 h.incarnation && fits 16 h.keySlot && fits 32 h.salt && fits 64 h.counter

/-- An acknowledgement record (R306). -/
def AckRec.wf (a : AckRec) : Bool :=
  fits 20 a.stream && fits 16 a.incarnation && fits 32 a.cumulative && decide (a.window ≤ 2 ^ 30) && fits 32 a.delay && a.bitmap.length == 32

/-- The name of a stream context (R300). -/
def CtxKey.wf (k : CtxKey) : Bool := fits 20 k.stream && (k.accepted || k.site == 0)

/-- One basic frame time at a line receiver (R278). -/
def LineRx.wf (r : LineRx) : Bool := decide (r.lanes.length ≤ 9) && r.lanes.all (fun l => l.2.length == 2125 && l.2.all (fun u => decide (u < 32)))

/-- Fields of a stream instruction (R204). -/
def StreamFields.wf (f : StreamFields) : Bool := fits 7 f.modifier && fits 5 f.rs2 && fits 5 f.rs1 && fits 5 f.rd

/-- A register that REGISTER_WRITE may name (R195, R442). -/
def RegTarget.wf : RegTarget → Bool
  | .csr _ a => fits 12 a
  | .mgmt a => a % 4 == 0 && decide (a < 0x2000000)

/-- A fault that can strike: an existing pool of a die (R246, R247). -/
def FaultUnit.wf : FaultUnit → Bool
  | .buffer d pool _ => decide (pool < (if d.val < 4 then 4 else 3))
  | _ => true

/-- Results of tests name existing units (R352, R353, R382 to R388). -/
def StageResult.wf (r : StageResult) : Bool :=
  r.sramClusters.all (fun c => decide (c < 16)) && r.sramSlices.all (fun k => decide (k < 4)) && r.sramLocal.all (fun n => decide (n < 64)) &&
    r.sramLine.all (fun m => decide (m < 16)) && r.sramSpares.length == 6 && r.lambdaErrors.all (fun x => decide (x.1 < 4320)) &&
    r.localErrors.all (fun x => decide (x.1 < 1152)) && r.lasers.length == 5 && r.serdesErrors.all (fun x => decide (x.1 < 144)) &&
    r.hbmFails.all (fun k => decide (k < 102)) && r.engineFails.all (fun k => decide (k < 80)) &&
    r.coreFails.all (fun k => decide (k < 288)) && r.adderFails.all (fun k => decide (k < 4352)) &&
    r.cipherFails.all (fun k => decide (k < 72)) && r.clusterFails.all (fun c => decide (c < 16))

/-- A Tocsin frame (R417). -/
def TocsinFrame.wf (f : TocsinFrame) : Bool := fits 32 f.session && fits 64 f.seq && fits 16 f.body.length

/-- The register of a check-value access is written by stores of 1, 2, 4 or 8 octets. -/
def storeWidth (w : Nat) : Bool := [1, 2, 4, 8].contains w

/-- An Ethernet frame that a port can deliver whole (R115, R416). -/
def frameWf (x : Octets) : Bool := decide (x.length ≤ 16384)

/-- Operands of a command are in their ranges. -/
def Instr.wf : Instr → Bool
  | .startBegin => true
  | .startStageEnd r => r.wf
  | .startStageLimit r => r.wf
  | .resetEnter => true
  | .resetColdEscalate => true
  | .resetNRise => true
  | .pwrgoodFall => true
  | .railFault rail => rail != .keep
  | .keepPowerLoss => true
  | .heldReport => true
  | .pllLockLoss => true
  | .refclkLoss => true
  | .refclkReturn => true
  | .refclkReturnWarmReset => true
  | .unitFault u => u.wf
  | .adderGroupFault _ use => use.all (fun u => fits 12 u.2.1 && fits 32 u.2.2.1 && fits 32 u.2.2.2)
  | .sliceSubstitute _ => true
  | .localFrameRx _ frame => frameWf frame
  | .creditFrameRx _ c => fits 32 c
  | .creditFrameTx _ => true
  | .creditTimeout _ => true
  | .localLinkUp _ => true
  | .localLinkDown _ => true
  | .pealStart h b => h.wf && b.wf
  | .pealStatus h q => h.wf && q.wf
  | .groupDefine h g => h.wf && g.wf
  | .groupRemove h group => h.wf && fits 12 group
  | .memPut h m data => h.wf && m.wf && decide (data.length = m.length)
  | .memGet h m => h.wf && m.wf
  | .memAtomic h m a => h.wf && m.wf && a.wf && m.length == a.width
  | .soAdd h id amount => h.wf && fits 14 id && fits 32 amount
  | .soWaitGe h id target timeout => h.wf && fits 14 id && fits 32 target && fits 32 timeout
  | .soReset h id => h.wf && fits 14 id
  | .soRead h id => h.wf && fits 14 id
  | .soWaitTimeout _ => true
  | .progLoadBegin h b => h.wf && b.wf
  | .progLoadData h index offset data => h.wf && fits 8 index && fits 32 offset && decide (1 ≤ data.length) && decide (data.length ≤ 8192)
  | .progLoadEnd h index sig => h.wf && fits 8 index && sig.length == 96
  | .progLoadTimeout _ => true
  | .progImageSwap _ index => fits 8 index
  | .progInvoke h b => h.wf && b.wf
  | .tensorPlace h t => h.wf && t.wf
  | .tensorExpand h t => h.wf && t.wf
  | .tensorLoadDone _ => true
  | .stepEnd h step => h.wf && fits 64 step
  | .stepBoundary _ => true
  | .counterRead h set first count => h.wf && fits 8 set && fits 32 first && fits 16 count
  | .hintNextEvent h secs ns => h.wf && fits 48 secs && fits 32 ns
  | .hintLapse _ => true
  | .fenceRelease _ => true
  | .nodeCompletionRx _ vlan c _ => fits 12 vlan && c.wf
  | .nodeOpTimeout _ => true
  | .contributionReadDone _ group peal chunk _ rank => fits 12 group && fits 32 peal && fits 32 chunk && fits 32 rank
  | .resultWriteDone _ group peal chunk rank => fits 12 group && fits 32 peal && fits 32 chunk && fits 32 rank
  | .exponentUp _ m => m.wf
  | .exponentDown _ m => m.wf
  | .partialUp _ m => m.wf
  | .resultDown _ m => m.wf
  | .abort _ m => m.wf
  | .pealDeadline _ group peal => fits 12 group && fits 32 peal
  | .pealRemoteDeadline _ group peal => fits 12 group && fits 32 peal
  | .projectionDone _ => true
  | .invocationStart _ => true
  | .taborInstruction _ => true
  | .ecallEndCore _ => true
  | .ecallEndInvocation _ => true
  | .invocationEnd _ => true
  | .watchdogExpiry _ => true
  | .registerWrite t _ => t.wf
  | .ssum _ f => f.wf
  | .smap _ f => f.wf
  | .sscan _ f => f.wf
  | .sgather _ f => f.wf
  | .sfilter _ f => f.wf
  | .ssort _ f => f.wf
  | .smerge _ f => f.wf
  | .streamInstructionDone _ => true
  | .swait _ _ => true
  | .sdma _ _ _ => true
  | .dwait _ _ _ => true
  | .dmaDone _ => true
  | .msub _ _ _ => true
  | .mwait _ _ _ => true
  | .matrixCommandDone _ => true
  | .cvlock _ _ => true
  | .cvunlock _ _ => true
  | .cvCtrlWrite _ width _ => storeWidth width
  | .cvDataWrite _ width _ => storeWidth width
  | .cvResultRead _ _ => true
  | .itemAdmission _ => true
  | .writerAdmit _ => true
  | .itemWriteDone _ => true
  | .refcountDecrement die pool _ => decide (pool < (if die.val < 4 then 4 else 3))
  | .outputSelect _ => true
  | .lineFrameSlot _ => true
  | .sealDone _ _ => true
  | .lineFrameRx _ r => r.wf
  | .dlosDeclare _ => true
  | .dlosClear _ => true
  | .dlofDeclare _ => true
  | .dlofClear _ => true
  | .dlomDeclare _ => true
  | .dlomClear _ => true
  | .mchSerialFrame _ txd => decide (txd.length ≤ 1024)
  | .pmSecond => true
  | .dataSegmentRx _ h _ => h.wf
  | .ackBlockRx _ records => records.all AckRec.wf
  | .streamOpenRx _ h b => h.wf && timeWf b.secs b.ns
  | .streamResetRx _ h b => h.wf && timeWf b.secs b.ns
  | .remoteOperationRx _ _ _ => true
  | .streamCompletionRx _ c _ => c.wf
  | .ackDelayExpiry k => k.wf
  | .retxTimer k => k.wf
  | .streamAgeFail k => k.wf
  | .reassemblyBufferGrant k => k.wf
  | .acceptedContextFree k => k.wf
  | .keyGrantRequest _ slot => fits 12 slot
  | .lineKeyActivation _ => true
  | .entropyTestFail _ => true
  | .entropyRetest samples => samples.length == 4096
  | .drbgReseed samples => samples.length == 768
  | .keyWrap _ => true
  | .timeSet _ => true
  | .timeSetPpsTimeout => true
  | .slewComplete => true
  | .ppsInEdge e => decide (e.half < 20)
  | .ppsHoldoverTimeout => true
  | .ppsOutEdge _ => true
  | .timeChallengeExpiry => true
  | .ownerBind _ => true
  | .debugChallenge => true
  | .timeChallenge => true
  | .debugUnlock _ => true
  | .jtagBypass _ => true
  | .jtagIdcode => true
  | .jtagSamplePreload pins shiftIn => pins.length == shiftIn.length
  | .jtagExtest => true
  | .imageBegin _ => true
  | .slotEraseDone => true
  | .imageData offset _ => fits 32 offset
  | .imageEnd => true
  | .imageUpdateTimeout => true
  | .secondDeviceCopyDone _ => true
  | .backgroundCopy => true
  | .criticalLogWrite => true
  | .reload _ => true
  | .release _ => true
  | .partitionBringupDone _ => true
  | .reloadDone _ => true
  | .scrubDone _ => true
  | .windowSwitch _ => true
  | .mirrorCommit _ => true
  | .mirrorTimeout _ => true
  | .mirrorLagProbe _ => true
  | .heldBackProbe _ => true
  | .admitRestore target => decide (target < 64) || target == 255
  | .admitDiscard target => decide (target < 64) || target == 255
  | .restoreDone _ => true
  | .watchdogWrite _ => true
  | .fwWatchdogExpiry => true
  | .fwLockstepFault => true
  | .heartbeat => true
  | .hello _ f => f.wf
  | .proof _ f => f.wf
  | .proofTimeout session => fits 32 session
  | .record _ f => f.wf
  | .close _ f => f.wf
  | .sessionIdleTimeout session => fits 32 session
  | .sessionCertExpiry session => fits 32 session
  | .go => true
  | .read addr count select => fits 32 addr && fits 32 count && fits 32 select
  | .write addr value => fits 32 addr && fits 32 value
  | .readSeqWrite value => fits 32 value
  | .resetWarm => true
  | .resetCold => true
  | .eventQueueDrain => true
  | .powerStateChoose _ => true
  | .powerEntryDone _ => true
  | .wakeTimer _ => true
  | .wakeDone _ => true
  | .watchWakeDone r => r.wf
  | .lineSignalWake _ => true
  | .temperatureWake temp => decide (-128 ≤ temp) && decide (temp ≤ 127)
  | .wake => true
  | .maintenanceWindow => true
  | .throttleStart _ => true
  | .throttleEnd => true
  | .thermNAssert _ temp => decide (-128 ≤ temp) && decide (temp ≤ 127)
  | .thermNRelease temps => temps.length == 6
  | .tocsinFrameDrop _ frame => frameWf frame
  | .mgmtLinkChange _ _ => true
  | .bulkMessageDone _ => true
  | .checkValueUnitFree _ => true
  | .flashProgramDone _ => true

end Sys2Proof
end

