-- ==== Sys2Proof/Certificates/Slice0/Obligations.lean ====
section
/-! DEFINITION. The statements for the provers. -/

open Sys2Proof Sys2Proof.Machine

/-! ### The machine as a whole -/

/-- For every command and state, a step with the command at the front of its queue is that command on the state with the queue's
rest; and every command completes in every state: none faults, none is refused. -/
def Obligations.StepRunsTheFrontCommand : Prop :=
  ∀ (c : Instr) (q : List Instr) (s : State), (step { s with pending := c :: q } = exec c { s with pending := q }) ∧ ∃ t, exec c s = .next t

/-- With no command waiting, a step runs the first of the work that earlier steps handed on; with none of that either, one KCLK cycle
passes (the model's choice, log entry 5). -/
def Obligations.StepWithNoCommandWaiting : Prop :=
  (∀ (r : Option Nat) (c : Instr) (q : List (Option Nat × Instr)) (s t : State), s.pending = [] → s.handed = (r, c) :: q →
    exec c { s with handed := q, resuming := r } = .next t → step s = .next { t with resuming := none }) ∧
  ∀ s : State, s.pending = [] → s.handed = [] → step s = .next (tick s)

/-- What reset leaves is legal: blank owner fuses, every memory in canonical form, no command waiting, Quartz at 0 and UNSET, the books in
order (R67, R361). What stands in the fuses and the flash at reset is the model's choice (log entry 6). -/
def Obligations.ResetIsLegal : Prop :=
  ownerLegal State.reset.owner = true ∧ Memory.wf State.reset = true ∧ State.reset.pending = [] ∧ State.reset.handed = [] ∧
    State.reset.now = 0 ∧ State.reset.quartz.set = false ∧ booksInOrder State.reset

/-- Every step keeps the owner fuses legal and never changes a fuse slot that is in use, the device unique
identifier, the root key or the vendor key hash (R36, R67 to R70, R350, R444). -/
def Obligations.StepKeepsOwnerFuses : Prop :=
  ∀ s t : State, ownerLegal s.owner = true → step s = .next t → ownerLegal t.owner = true ∧ fusesKept s.owner t.owner = true ∧
    t.fixed = s.fixed

/-- Every step keeps every memory of the device in canonical form: Basalt, scratch, the memories of the cores, Slate flash, the record
buffer. The canonical form is the model's (log entry 5). -/
def Obligations.StepKeepsMemoriesCanonical : Prop :=
  ∀ s t : State, Memory.wf s = true → step s = .next t → Memory.wf t = true

/-- Every step keeps the books in order: an accepted descriptor, a wait and a remote operation carry numbers already given out, and the
pools, expanders and flash devices stay as many as they are (R76, R126, R136, R244, R246, R321). -/
def Obligations.StepKeepsTheBooks : Prop := ∀ s t : State, booksInOrder s → step s = .next t → booksInOrder t

/-- No command but an owner bind record changes the owner fuses (R67, R68). -/
def Obligations.OnlyOwnerBindFuses : Prop :=
  ∀ (c : Instr) (s t : State), exec c s = .next t → (∀ r, c ≠ .ownerBind r) → t.owner = s.owner

/-! ### Starts, resets and clocks (R32, R33, R378 to R395) -/

/-- START_BEGIN zeroes every counter and enters stage 1; a stage 1 that ends with good samples leaves the entropy source as it was, one
that ends at its limit fails it, and either way stage 2 follows; stage 12 is followed by Ready (R352, R378, R379, R390, R433). -/
def Obligations.StartRunsItsStages : Prop :=
  (∀ s : State, (s.boot.phase = .waiting ∨ s.boot.phase = .held) → s.boot.resetN = true → s.boot.refclk = true →
    Completes .startBegin s (fun t => t.boot.phase = .stage 1 ∧ t.ctrs = [] ∧ t.quartz = s.quartz ∧ t.owner = s.owner)) ∧
  (∀ (s : State) (r : StageResult), s.boot.phase = .stage 1 → healthOk r.samples = true →
    Completes (.startStageEnd r) s (fun t => t = { s with boot := { s.boot with phase := .stage 2 } })) ∧
  (∀ (s : State) (r : StageResult), s.boot.phase = .stage 1 →
    Completes (.startStageLimit r) s (fun t => t.boot.phase = .stage 2 ∧ t.keys.ent = .failed)) ∧
  ∀ (s : State) (r : StageResult), s.boot.phase = .stage 12 → Completes (.startStageEnd r) s (fun t => t.boot.phase = .ready)

/-- The key store as a reset leaves it: no key and no DRBG, and the entropy source HEALTHY but where it is FAILED, which only a good retest
ends (R354, R395). -/
def keysAfterReset (k : KeyStore) : KeyStore :=
  if k.ent = .failed then { KeyStore.reset with ent := .failed, retestFails := k.retestFails } else .reset

/-- What a reset keeps: Quartz's time, addend and SET state, the retention record, the fuses, the event ring, into which the queue has
drained, the command queue; what it loses: keys, partitions' work, streams, descriptors, sessions, the debug unlock (R361, R395, R456). -/
def resetKeeps (s t : State) : Prop :=
  t.quartz.secs = s.quartz.secs ∧ t.quartz.ns = s.quartz.ns ∧ t.quartz.frac = s.quartz.frac ∧ t.quartz.addend = s.quartz.addend ∧
    t.quartz.set = s.quartz.set ∧ t.boot.retention = s.boot.retention ∧ t.owner = s.owner ∧ t.fixed = s.fixed ∧ t.events.queue = [] ∧
    (s.events.ring.length + max s.queued 256 ≤ 65536 → s.events.ring <+: t.events.ring) ∧ t.pending = s.pending ∧
    t.keys = keysAfterReset s.keys ∧ t.ctxs = [] ∧ t.descs = [] ∧ t.invs = [] ∧ t.groups = [] ∧ t.progs = [] ∧
    t.basalt = [] ∧ t.tocsin.sessions = [] ∧ t.debugScope = 0 ∧ t.quartz.tracking = false

/-- Every cause of a warm reset ends in one, with its trigger, and keeps what a warm reset keeps: the 100th low sample of RESET_N, root
PLL loss, REFCLK loss and return, and the operator's record (R32, R33, R391, R392, R395). -/
def Obligations.WarmResets : Prop :=
  (∀ s : State, s.isHeld = false → Completes .resetEnter s (fun t =>
    t.boot.kind = .warm ∧ t.boot.trigger = 2 ∧ t.boot.phase = .held ∧ t.boot.resetN = false ∧ resetKeeps s t)) ∧
  (∀ s : State, s.isHeld = false → Completes .pllLockLoss s (fun t => t.boot.kind = .warm ∧ t.boot.trigger = 6 ∧ resetKeeps s t)) ∧
  (∀ s : State, s.isHeld = false → s.boot.refclk = true → Completes .refclkLoss s (fun t =>
    t.boot.kind = .warm ∧ t.boot.trigger = 7 ∧ t.boot.phase = .held ∧ t.boot.refclk = false ∧ t.quartz.osc = true ∧ resetKeeps s t)) ∧
  (∀ s : State, s.boot.refclk = false → Completes .refclkReturn s (fun t =>
    t.boot.refclk = true ∧ t.quartz = s.quartz ∧ t.parts = s.parts)) ∧
  (∀ s : State, s.isHeld = false → s.boot.refclk = true → Completes .refclkReturnWarmReset s (fun t =>
    t.boot.kind = .warm ∧ t.boot.trigger = 7 ∧ resetKeeps s t)) ∧
  ∀ s : State, Completes .resetWarm s (fun t => t.boot.kind = .warm ∧ t.boot.trigger = 3 ∧ resetKeeps s t)

/-- Every cause of a cold reset ends in one, with its trigger, and keeps what a cold reset keeps: PWRGOOD falling, a rail outside its
limits, the operator's record, and RESET_N low for 8 s, which turns a warm reset cold; a device that has never started stays at its
power-on start (R378, R391, R392, R394, R395, R469). A power-on start is read as one that no cold reset can precede (log entry 30). -/
def Obligations.ColdResets : Prop :=
  (∀ s : State, s.neverStarted = false → Completes .pwrgoodFall s (fun t =>
    t.boot.kind = .cold ∧ t.boot.trigger = 4 ∧ t.boot.pwrgood = false ∧ t.boot.phase = .held ∧ resetKeeps s t)) ∧
  (∀ (s : State) (r : Rail), s.neverStarted = false → s.boot.pwrgood = true → Completes (.railFault r) s (fun t =>
    t.boot.kind = .cold ∧ t.boot.trigger = 5 ∧ r ∈ t.boot.badRails ∧ t.boot.phase = .held ∧ resetKeeps s t)) ∧
  (∀ s : State, s.neverStarted = false → Completes .resetCold s (fun t => t.boot.kind = .cold ∧ t.boot.trigger = 3 ∧ resetKeeps s t)) ∧
  (∀ s : State, s.isHeld = true → s.boot.resetN = false → s.boot.kind = .warm → Completes .resetColdEscalate s (fun t =>
    t.boot.kind = .cold ∧ t.boot.phase = .held ∧ resetKeeps s t)) ∧
  ∀ s : State, s.neverStarted = true → Completes .pwrgoodFall s (fun t =>
    t = { s with boot := { s.boot with pwrgood := false, phase := .held } })

/-- RESET_N returning high lets a start follow once all else that R378 asks for holds; the loss of VDD_KEEP loses Quartz, the event ring
and the retention record, but no fuse and no Slate flash (R361, R378, R392, R395). -/
def Obligations.HoldEndsAndKeepPower : Prop :=
  (∀ s : State, s.isHeld = true → s.boot.refclk = true → s.boot.pwrgood = true → s.boot.badRails = [] →
    Completes .resetNRise s (fun t => t = { s with boot := { s.boot with resetN := true, phase := .waiting } })) ∧
  (∀ s : State, Completes .keepPowerLoss s (fun t => t.quartz = Quartz.reset ∧ t.events = State.reset.events ∧
    t.boot.retention = Boot.reset.retention ∧ t.owner = s.owner ∧ t.flash.devs.map FlashDev.cells = s.flash.devs.map FlashDev.cells)) ∧
  ∀ s : State, s.isHeld = true → s.tocsin.links = [true, false] →
    Completes .heldReport s (fun t => ∃ q, t.out = s.out ++ [.tocsin 0 (tocsinBytes 2 0 q (s.heartbeatBody 0))])

/-! ### Power states and thermal limits (R423 to R432, R473) -/

/-- THERM_N is driven low by a die at 115 °C or above, and released once every die is below 110 °C (R473). The release reads one value a die
(log entry 32). -/
def Obligations.ThermNFollowsTheDies : Prop :=
  (∀ (s : State) (d : DieId) (x : Int), 115 ≤ x →
    exec (.thermNAssert d x) s = .next { s with power := { s.power with thermN := true } }) ∧
  (∀ (s : State) (l : List Int), l.length = 6 → (∀ x ∈ l, x < 110) →
    exec (.thermNRelease l) s = .next { s with power := { s.power with thermN := false } }) ∧
  ∀ (s : State) (l : List Int), (∃ x ∈ l, 110 ≤ x) → exec (.thermNRelease l) s = .next s

/-- A throttle period starts and ends with an event and changes nothing else: no result, no memory, no unit's work (R432). -/
def Obligations.ThrottleChangesNoResult : Prop :=
  (∀ (s : State) (b : Bool), s.power.throttle = none → Completes (.throttleStart b) s (fun t =>
    t.power.throttle = some b ∧ t = { s with power := t.power, events := t.events } ∧
    t.events = (s.throttleEvent b 1).events)) ∧
  ∀ (s : State) (b : Bool), s.power.throttle = some b → Completes .throttleEnd s (fun t =>
    t.power.throttle = none ∧ t = { s with power := t.power, events := t.events } ∧
    t.events = (s.throttleEvent b 0).events)

/-- An idle cluster with no known event, in A0 on a ready device, enters the deepest state that the POWER record allows it; the entry ends
in that state, a wake cause pending then wakes it at once, and the end of a wake is A0 (R424, R428). That an entry and a wake end as
commands of their own is the model's form (log entry 32). -/
def Obligations.ClusterSleepsAndWakes : Prop :=
  (∀ (s : State) (c : ClusterId), s.boot.phase = .ready → s.unitIdle (.cluster c) = true → s.unitPower (.cluster c) = .run →
    s.powerLimits.1 = 2 → s.knownEvents (.cluster c) = [] → Completes (.powerStateChoose (.cluster c)) s (fun t =>
      (t.cluster c).entering = some 2 ∧ (t.cluster c).scratch = (s.cluster c).scratch ∧
        t.handed = s.handed ++ [(none, .powerEntryDone (.cluster c))])) ∧
  (∀ (s : State) (c : ClusterId) (n : Nat), s.unitPower (.cluster c) = ⟨0, some n, false, false⟩ →
    Completes (.powerEntryDone (.cluster c)) s (fun t => t.unitPower (.cluster c) = ⟨n, none, false, false⟩ ∧
      (t.cluster c).scratch = (s.cluster c).scratch)) ∧
  (∀ (s : State) (c : ClusterId) (n : Nat), s.unitPower (.cluster c) = ⟨n + 1, none, false, false⟩ →
    Completes (.wakeTimer (.cluster c)) s (fun t => t.unitPower (.cluster c) = ⟨n + 1, none, true, false⟩ ∧
      t.handed = s.handed ++ [(none, .wakeDone (.cluster c))])) ∧
  ∀ (s : State) (c : ClusterId) (n : Nat), s.unitPower (.cluster c) = ⟨n, none, true, false⟩ →
    Completes (.wakeDone (.cluster c)) s (fun t => t.unitPower (.cluster c) = .run ∧ (t.cluster c).scratch = (s.cluster c).scratch)

/-- In Watch the wake sources wake the device: a change of signal detect on an enabled line port, the hottest die at the threshold, a WAKE
record, a comparator (here that of the maintenance windows, which is armed again); out of Watch a WAKE record is answered and changes no
power state; a wake whose root PLLs both fail stays in visibility service (R93, R375, R397, R429 to R431). The form of the wakes is the
model's (log entry 32). -/
def Obligations.WatchWakes : Prop :=
  (∀ (s : State) (m : LinePort) (l : LineRec), s.power.device = ⟨4, none, false, false⟩ → s.conf.lineOf m = some l → l.enabled = true →
    Completes (.lineSignalWake m) s (fun t => t = { s with power := { s.power with device := ⟨4, none, true, false⟩ } })) ∧
  (∀ (s : State) (x : Int) (r : PowerRec), s.power.device = ⟨4, none, false, false⟩ → s.conf.power = some r → r.wakeTemp ≤ x →
    Completes (.temperatureWake x) s (fun t => t = { s with power := { s.power with device := ⟨4, none, true, false⟩ } })) ∧
  (∀ s : State, s.power.device = ⟨4, none, false, false⟩ → Completes .wake s (fun t => t.power.device = ⟨4, none, true, false⟩)) ∧
  (∀ s : State, s.power.device.state ≠ 4 → Completes .wake s (fun t => t.power = s.power)) ∧
  (∀ s : State, s.power.device = ⟨4, none, false, false⟩ → Completes .maintenanceWindow s (fun t =>
    t.power.device = ⟨4, none, true, false⟩ ∧ t.quartz = s.armMaintenance.quartz)) ∧
  ∀ (s : State) (r : StageResult), s.power.device.state = 4 → s.power.device.waking = true → r.pll0 = false → r.pll1 = false →
    Completes (.watchWakeDone r) s (fun t => t.boot.phase = .visibility ∧ t.power.device = .run ∧ t.boot.serviceCause = 3)

/-! ### Sync objects and memory operations (R123 to R137) -/

/-- ADD adds, answers, and completes every pending wait whose target the new value meets; an ADD that would pass 2^32 − 1 is refused
with OVERFLOW and changes no value; RESET, READ and WAIT_GE as R136 says; no sync operation touches anything but the sync object and
the books of descriptors. -/
def Obligations.SyncObjects : Prop :=
  (∀ (s : State) (h : DescHdr) (p id n : Nat), startsAtOnce s h p → descsFresh s → id < 16384 → s.syncCheck p id = none →
    s.syncValue id + n ≤ 4294967295 → Completes (.soAdd h id n) s (fun t =>
      flowOnly (s.setSync id (s.syncValue id + n)) t ∧ answered s t p h 0x20 .ok (syncBody (s.syncValue id + n)) ∧
      ∀ w ∈ s.waits, w.sync = id → w.target ≤ s.syncValue id + n → t.desc w.desc = none ∧
        ∀ d, s.desc w.desc = some d → answered s t d.part d.hdr d.opcode .ok (syncBody (s.syncValue id + n)))) ∧
  (∀ (s : State) (h : DescHdr) (p id n : Nat), startsAtOnce s h p → descsFresh s → id < 16384 → s.syncCheck p id = none →
    4294967295 < s.syncValue id + n → Completes (.soAdd h id n) s (fun t =>
      flowOnly s t ∧ t.waits = s.waits ∧ answered s t p h 0x20 .overflow (syncBody (s.syncValue id)))) ∧
  (∀ (s : State) (h : DescHdr) (p id : Nat), startsAtOnce s h p → descsFresh s → id < 16384 → s.syncCheck p id = none →
    Completes (.soReset h id) s (fun t =>
      flowOnly (s.setSync id 0) t ∧ t.syncValue id = 0 ∧ t.waits = s.waits ∧ answered s t p h 0x20 .ok (syncBody 0))) ∧
  (∀ (s : State) (h : DescHdr) (p id : Nat), startsAtOnce s h p → descsFresh s → id < 16384 → s.syncCheck p id = none →
    Completes (.soRead h id) s (fun t =>
      flowOnly s t ∧ t.waits = s.waits ∧ answered s t p h 0x20 .ok (syncBody (s.syncValue id)))) ∧
  (∀ (s : State) (h : DescHdr) (p id g u : Nat), startsAtOnce s h p → descsFresh s → id < 16384 → u ≤ 10000000 →
    s.syncCheck p id = none → Completes (.soWaitGe h id g u) s (fun t => flowOnly s t ∧
      if g ≤ s.syncValue id then t.waits = s.waits ∧ answered s t p h 0x20 .ok (syncBody (s.syncValue id))
      else if u = 0 then t.waits = s.waits ∧ answered s t p h 0x20 .timeout (syncBody (s.syncValue id))
      else if s.waits.countP (fun w => w.part == p) < 16384 then
        t.waits = s.waits ++ [⟨s.nextDesc, p, id, g, u⟩] ∧ t.sw = s.sw ∧ (t.desc s.nextDesc).isSome = true
      else t.waits = s.waits ∧ answered s t p h 0x20 .quota (syncBody (s.syncValue id)))) ∧
  ∀ (s : State) (n : Nat) (w : SyncWait) (d : Desc), s.waits.find? (fun x => x.desc == n) = some w → s.desc n = some d →
    Completes (.soWaitTimeout n) s (fun t => flowOnly s t ∧ t.desc n = none ∧
      answered s t d.part d.hdr d.opcode .timeout (syncBody (s.syncValue w.sync)))

/-- What R127 answers before a descriptor runs, in its order, on a sync READ: an unmapped pair drops the frame with its count; then
BAD_DESCRIPTOR, the reply of the partition's state, NOT_PERMITTED for a sync object not held, and QUOTA past 4,096 accepted; nothing but
the books of descriptors changes (R43, R64, R117, R126, R127). The release of a descriptor that a fence held (FENCE_RELEASE) hands its
command on, to come again here (R126). -/
def Obligations.StatusOrder : Prop :=
  (∀ (s : State) (h : DescHdr) (id : Nat), s.resuming = none → s.ownerOf h.port h.vlan h.owner = none →
    exec (.soRead h id) s = .next ((s.consume h).bump (.rx h.port 3))) ∧
  (∀ (s : State) (h : DescHdr) (p id : Nat), s.resuming = none → s.ownerOf h.port h.vlan h.owner = some p → s.waitsFor h = [] →
    Completes (.soRead h id) s (fun t =>
      (16384 ≤ id → flowOnly s t ∧ answered s t p h 0x20 .badDescriptor []) ∧
      (id < 16384 → (s.part p).state = .starting ∨ (s.part p).state = .reloading →
        flowOnly s t ∧ answered s t p h 0x20 .partitionReload []) ∧
      (id < 16384 → (s.part p).state = .halted → flowOnly s t ∧ answered s t p h 0x20 .notPermitted []) ∧
      (id < 16384 → (s.part p).state = .active → s.syncCheck p id ≠ none →
        flowOnly s t ∧ answered s t p h 0x20 .notPermitted []) ∧
      (id < 16384 → (s.part p).state = .active → s.syncCheck p id = none → 4096 ≤ s.accepted p →
        flowOnly s t ∧ answered s t p h 0x20 .quota []))) ∧
  ∀ (s : State) (n : Nat) (d : Desc) (l : List Nat), s.desc n = some d → d.hold = .fence l → (∀ k ∈ l, s.desc k = none) →
    Completes (.fenceRelease n) s (fun t => (∃ e, t.desc n = some e ∧ e.hold = .running) ∧ (some n, d.cmd) ∈ t.handed ∧
      t = { s with descs := t.descs, handed := t.handed })

/-- A memory operation that no window covers receives SEGMENT_FAULT and moves no octet (R46, R132). -/
def Obligations.SegmentFaultMovesNothing : Prop :=
  ∀ (s : State) (h : DescHdr) (p : Nat) (m : MemOp) (x : Octets), startsAtOnce s h p → memFormBad s h m = false →
    1 ≤ m.length → m.length ≤ 8192 → x.length = m.length → s.windowsWait p = false →
    (m.space = .scratch → s.holdsCluster p m.cluster = true) → (m.space = .global → s.siteRemote (siteOf m.addr) = false) →
    (s.access p m.space m.cluster m.addr m.length .write = false → Completes (.memPut h m x) s (fun t =>
      flowOnly s t ∧ t.descs = s.descs ∧ answered s t p h 0x10 .segmentFault [])) ∧
    (s.access p m.space m.cluster m.addr m.length .read = false → Completes (.memGet h m) s (fun t =>
      flowOnly s t ∧ t.descs = s.descs ∧ answered s t p h 0x11 .segmentFault []))

/-- In a device-local space a put writes exactly its octets, a get returns the octets and writes none, an atomic writes the new value
of R134 over its aligned word and returns the old one; every other octet of scratch and Basalt stays, and every memory of every core; a
put that asks for no completion sends none (R125, R131, R132, R134). -/
def Obligations.DeviceMemory : Prop :=
  (∀ (s : State) (h : DescHdr) (p : Nat) (m : MemOp) (x : Octets), memRuns s h m p .write true → m.space ≠ .global →
    1 ≤ m.length → m.length ≤ 8192 → x.length = m.length → matrixReads s m = false →
    Completes (.memPut h m x) s (fun t =>
      (∀ sp c a, inRange m sp c a = true → localByte t sp c a = x.getD (a - m.addr) 0) ∧
      (∀ sp c a, inRange m sp c a = false → sp = .scratch ∨ sp = .basalt → localByte t sp c a = localByte s sp c a) ∧
      flowOnly (s.placeLocal m.space m.cluster m.addr x) t ∧
      if h.wantCompletion then answered s t p h 0x10 .ok [] else t.sw = s.sw)) ∧
  (∀ (s : State) (h : DescHdr) (p : Nat) (m : MemOp), memRuns s h m p .read false → m.space ≠ .global →
    1 ≤ m.length → m.length ≤ 8192 → matrixWrites s m = false → Completes (.memGet h m) s (fun t =>
      flowOnly s t ∧ answered s t p h 0x11 .ok (s.readLocal m.space m.cluster m.addr m.length))) ∧
  ∀ (s : State) (h : DescHdr) (p : Nat) (m : MemOp) (a : AtomicArgs), memRuns s h m p .atomic true → m.space ≠ .global →
    (a.width = 4 ∨ a.width = 8) → m.length = a.width → m.addr % a.width = 0 → (a.op ≠ .compareSwap → a.b = 0) →
    matrixReads s m = false → matrixWrites s m = false → Completes (.memAtomic h m a) s (fun t =>
      let old := leNat (s.readLocal m.space m.cluster m.addr a.width)
      let x := leBytes a.width (atomicNew a.op a.width old a.a a.b)
      (∀ sp c n, inRange m sp c n = true → localByte t sp c n = x.getD (n - m.addr) 0) ∧
      (∀ sp c n, inRange m sp c n = false → sp = .scratch ∨ sp = .basalt → localByte t sp c n = localByte s sp c n) ∧
      flowOnly (s.placeLocal m.space m.cluster m.addr x) t ∧ answered s t p h 0x12 .ok (beBytes 8 old))

/-- A memory operation for a node of the local site leaves as a descriptor frame to the node's address on the pair of the flow hash,
and its descriptor stays accepted; with no pair to leave on it ends at once with TIMEOUT (R130). -/
def Obligations.NodeOperationsLeave : Prop :=
  (∀ (s : State) (h : DescHdr) (p : Nat) (m : MemOp) (o : Nat × Nat), memRuns s h m p .read false → m.space = .global →
    s.siteRemote (siteOf m.addr) = false → 1 ≤ m.length → m.length ≤ 8192 →
    pickFlow p (nodeOf m.addr) (s.part p).candPairs = some o → Completes (.memGet h m) s (fun t =>
      (∃ tag, t.nodeOps = s.nodeOps ++ [⟨tag, p, 0x11, m.length, .desc s.nextDesc⟩] ∧ ∃ i ∈ t.sw.items,
        i.outs = [o] ∧ i.part = p ∧ i.cls = h.cls.val ∧ i.load = .frame (nodeAddress (nodeOf m.addr)) none 0x88B5
          (yuvBytes 1 0x11 1 tag.toNat 0 (memBody .global m.cluster 0 0 m.length m.addr 0 0 []))) ∧
      (t.desc s.nextDesc).isSome = true ∧
      t = { s with sw := t.sw, handed := t.handed, descs := t.descs, nextDesc := t.nextDesc, nodeOps := t.nodeOps, freeCtr := s.freeCtr + 1 })) ∧
  ∀ (s : State) (h : DescHdr) (p : Nat) (m : MemOp), memRuns s h m p .read false → m.space = .global →
    s.siteRemote (siteOf m.addr) = false → 1 ≤ m.length → m.length ≤ 8192 → (s.part p).candPairs = [] →
    Completes (.memGet h m) s (fun t => flowOnly s t ∧ answered s t p h 0x11 .timeout [])

/-- A completion of a node answers the operation with its tag: the originator has its status, and for OK exactly the octets that the
operation returns; the timeout of a node operation answers TIMEOUT; a completion that matches nothing is counted and changes nothing
else (R123, R130, R132). -/
def Obligations.NodeAnswers : Prop :=
  (∀ (s : State) (n : LocalPort) (v p id : Nat) (c : CompHdr) (x : Octets) (o : NodeOp) (d : Desc),
    s.ownerOf n v c.owner = some p → s.nodeOps.find? (fun y => y.part == p && y.tag == c.tag) = some o → o.origin = .desc id →
    s.desc id = some d → alwaysCompletes d.opcode = true → d.opcode ≠ 0x32 → x.length = o.bodyLen → c.status = .ok →
    Completes (.nodeCompletionRx n v c x) s (fun t => answered s t d.part d.hdr d.opcode .ok x ∧ t.desc id = none ∧
      flowOnly { s with nodeOps := s.nodeOps.filter (fun y => y.tag != c.tag) } t)) ∧
  (∀ (s : State) (n : LocalPort) (v p id : Nat) (c : CompHdr) (x : Octets) (o : NodeOp) (d : Desc),
    s.ownerOf n v c.owner = some p → s.nodeOps.find? (fun y => y.part == p && y.tag == c.tag) = some o → o.origin = .desc id →
    s.desc id = some d → d.opcode ≠ 0x32 → c.status ≠ .ok →
    Completes (.nodeCompletionRx n v c x) s (fun t => answered s t d.part d.hdr d.opcode c.status [] ∧ t.desc id = none ∧
      flowOnly { s with nodeOps := s.nodeOps.filter (fun y => y.tag != c.tag) } t)) ∧
  (∀ (s : State) (n : LocalPort) (v p : Nat) (c : CompHdr) (x : Octets), s.ownerOf n v c.owner = some p →
    (∀ o ∈ s.nodeOps, o.part = p → o.tag ≠ c.tag) → exec (.nodeCompletionRx n v c x) s = .next (s.bump (.rx n 5))) ∧
  ∀ (s : State) (tag : Word32) (id : Nat) (o : NodeOp) (d : Desc), s.nodeOps.find? (fun y => y.tag == tag) = some o →
    o.origin = .desc id → s.desc id = some d → d.opcode ≠ 0x32 → Completes (.nodeOpTimeout tag) s (fun t =>
      answered s t d.part d.hdr d.opcode .timeout [] ∧ t.desc id = none ∧
      flowOnly { s with nodeOps := s.nodeOps.filter (fun y => y.tag != tag) } t)

/-- A fenced descriptor is accepted and held while an earlier one of its pair and stream has not completed, one without the fence flag
waits for none, and the release of a held one (FENCE_RELEASE) starts it (R126). -/
def Obligations.FencesHold : Prop :=
  (∀ (s : State) (h : DescHdr) (p id : Nat), s.resuming = none → s.ownerOf h.port h.vlan h.owner = some p → (s.part p).state = .active →
    s.accepted p < 4096 → id < 16384 → s.waitsFor h ≠ [] → Completes (.soRead h id) s (fun t =>
      t.descs = s.descs ++ [⟨s.nextDesc, p, { h with units := 0 }, 0x20, .fence (s.waitsFor h), .soRead h id, false⟩] ∧
      t.sw = s.sw ∧ flowOnly s t)) ∧
  (∀ (s : State) (h : DescHdr), h.fence = false → s.waitsFor h = []) ∧
  (∀ (s : State) (h : DescHdr), h.fence = true → s.waitsFor h =
    (s.descs.filter (fun d => d.hdr.port == h.port && d.hdr.vlan == h.vlan && d.hdr.stream == h.stream)).map Desc.id) ∧
  ∀ (s : State) (n : Nat) (d : Desc) (l : List Nat), s.desc n = some d → d.hold = .fence l → (∀ k ∈ l, s.desc k = none) →
    exec (.fenceRelease n) s = .next { s with
      descs := s.descs.map (fun x => if x.id == n then { x with hold := .running } else x), handed := s.handed ++ [(some n, d.cmd)] }

/-! ### Local ports (R114 to R122) -/

/-- Credit on a local port: a count received is taken unless the available credit would pass 2^31, which raises an event; a credit
frame reports the count granted; a silence raises an event and keeps the last count; on a port whose link is down none of them does
anything (R118 to R120). -/
def Obligations.LinkCredit : Prop :=
  (∀ (s : State) (n : LocalPort) (c : Nat), (s.port n).linkUp = true → serialDiff 32 c (s.port n).consumed ≤ 2 ^ 31 →
    Completes (.creditFrameRx n c) s (fun t => t.port n = { s.port n with peerGranted := c % 2 ^ 32 } ∧
      t.handed = s.handed ++ [(none, .outputSelect n)] ∧ t = { s with ports := t.ports, handed := t.handed } ∧
      ∀ k : LocalPort, k ≠ n → t.port k = s.port k)) ∧
  (∀ (s : State) (n : LocalPort) (c : Nat), (s.port n).linkUp = true → 2 ^ 31 < serialDiff 32 c (s.port n).consumed →
    exec (.creditFrameRx n c) s = .next (s.raise 0x0502 none (State.oct 1 ++ State.oct n))) ∧
  (∀ (s : State) (n : LocalPort), (s.port n).linkUp = true → Completes (.creditFrameTx n) s (fun t =>
    t.out = s.out ++ [.frame n (creditFrame n (s.port n).granted)] ∧ t.port n = { s.port n with reported := some (s.port n).granted } ∧
    t = { s with ports := t.ports, out := t.out } ∧ ∀ k : LocalPort, k ≠ n → t.port k = s.port k)) ∧
  (∀ (s : State) (n : LocalPort), (s.port n).linkUp = true →
    exec (.creditTimeout n) s = .next (s.raise 0x0502 none (State.oct 2 ++ State.oct n))) ∧
  ∀ (s : State) (n : LocalPort) (c : Nat), (s.port n).linkUp = false →
    exec (.creditFrameRx n c) s = .next s ∧ exec (.creditFrameTx n) s = .next s ∧ exec (.creditTimeout n) s = .next s

/-- A link that comes up starts both counts at zero and grants the receive grant of its PORT record at once; a link that goes down has
both counts return to zero and keeps no entry queued for it (R119, R122, R261). -/
def Obligations.LinksComeAndGo : Prop :=
  (∀ (s : State) (n : LocalPort) (r : PortRec), s.portUp n = true → (s.port n).linkUp = false → s.conf.portOf n = some r →
    Completes (.localLinkUp n) s (fun t => t.port n = { s.port n with
        linkUp := true, granted := r.grant, reported := some r.grant, peerGranted := 0, consumed := 0 } ∧
          t.out = s.out ++ [.frame n (creditFrame n r.grant)] ∧
      t = { s with ports := t.ports, out := t.out } ∧ ∀ k : LocalPort, k ≠ n → t.port k = s.port k)) ∧
  (∀ (s : State) (n : LocalPort), (∀ i ∈ s.sw.items, ∀ o ∈ i.outs, o.1 ≠ n.val) → Completes (.localLinkDown n) s (fun t =>
    t.port n = { s.port n with
        linkUp := false, granted := 0, reported := none, staged := 0, stale := (s.port n).stale + (s.port n).staged,
        peerGranted := 0, consumed := 0 } ∧ t = { s with ports := t.ports } ∧ ∀ k : LocalPort, k ≠ n → t.port k = s.port k)) ∧
  ∀ (s : State) (n : LocalPort), Completes (.localLinkDown n) s (fun t => (t.port n).linkUp = false ∧ (t.port n).consumed = 0 ∧
    (t.port n).peerGranted = 0 ∧ ∀ (id : Nat) (i j : Item), s.item id = some i → i.buf.isSome = true → t.item id = some j →
      ∀ o ∈ j.outs, o.1 ≠ n.val)

/-- What R115 does with a frame: a frame with a bad check sequence is dropped with its count and its units are granted again; a credit
frame is passed on; a descriptor frame of a mapped pair becomes its command, with its units and its partition, while the receive stage holds it
(R115, R117, R118, R121). -/
def Obligations.FramesReceived : Prop :=
  (∀ (s : State) (n : LocalPort) (x : Octets), s.resuming = none → (s.port n).linkUp = true → 64 ≤ x.length → fcsOk x = false →
    Completes (.localFrameRx n x) s (fun t => (s.ctr (.rx n 0) < 0xFFFFFFFE → t.ctr (.rx n 0) = s.ctr (.rx n 0) + 1) ∧
      (t.port n).staged = (s.port n).staged ∧ (t.port n).granted = ((s.port n).granted + unitsOf x.length) % 2 ^ 32)) ∧
  (∀ (s : State) (n : LocalPort) (x : Octets), s.resuming = none → (s.port n).linkUp = true → 64 ≤ x.length → x.length ≤ 9216 → fcsOk x = true →
    (ethFrame x).tag = none → (ethFrame x).etype = 0x88B5 → octetAt 1 (ethFrame x).body = 3 →
    exec (.localFrameRx n x) s = .next (s.hand (.creditFrameRx n (beAt 4 4 (ethFrame x).body)))) ∧
  ∀ (s : State) (n : LocalPort) (x : Octets) (pcp vlan p : Nat) (i : Instr), s.resuming = none → (s.port n).linkUp = true →
    (s.port n).inRx = false → s.partGone p = false → 64 ≤ x.length → x.length ≤ 9216 → fcsOk x = true → (ethFrame x).tag = some (pcp, vlan) →
      pcp < 8 → 1 ≤ vlan → vlan ≤ 4094 →
    (ethFrame x).etype = 0x88B5 → s.mapped n vlan = some p → ((s.conf.portOf n).map PortRec.snare).getD 0 = 0 →
    octetAt 0 (ethFrame x).body = 1 → octetAt 1 (ethFrame x).body = 1 →
    parseDescriptor { descHdr n vlan (Fin.ofNat 8 pcp) (ethFrame x).src (ethFrame x).body with units := unitsOf x.length, owner := some p }
      (ethFrame x).body = some i →
    Completes (.localFrameRx n x) s (fun t => t.handed = s.handed ++ [(none, i)] ∧
      t.port n = { s.port n with staged := (s.port n).staged + unitsOf x.length, inRx := true } ∧
      t = { s with ports := t.ports, handed := t.handed } ∧ ∀ k : LocalPort, k ≠ n → t.port k = s.port k)

/-! ### Steps, counters and the hint (R138 to R140) -/

/-- STEP_END with the current number is accepted and its boundary comes once nothing accepted before it is left; with another number, or
while one waits, it receives BAD_DESCRIPTOR with the current number in any state of its partition; while it waits GROUP_DEFINE is held; its
boundary adds 1 to the step
number and completes it with the new number (R138). Groups, keys, a reload and a mirror that wait for the boundary are the matter of
other statements. -/
def Obligations.Steps : Prop :=
  (∀ (s : State) (h : DescHdr) (p : PartId), startsAtOnce s h p → Completes (.stepEnd h (s.part p).step) s (fun t =>
    t.part p = { s.part p with stepEnd := some s.nextDesc } ∧ (∀ q : PartId, q ≠ p → t.part q = s.part q) ∧
    (s.stepReady p = true → (none, .stepBoundary p) ∈ t.handed) ∧
    t = { s with parts := t.parts, descs := t.descs, nextDesc := t.nextDesc, handed := t.handed, ports := t.ports })) ∧
  (∀ (s : State) (h : DescHdr) (p n : Nat), s.resuming = none → s.ownerOf h.port h.vlan h.owner = some p →
    (n ≠ (s.part p).step ∨ (s.part p).stepEnd ≠ none) →
    Completes (.stepEnd h n) s (fun t => flowOnly s t ∧ t.descs = s.descs ∧
      answered s t p h 0x40 .badDescriptor (beBytes 8 (s.part p).step))) ∧
  (∀ (s : State) (h : DescHdr) (p g : Nat), s.resuming = none → s.ownerOf h.port h.vlan h.owner = some p → (s.part p).state = .active →
    s.accepted p < 4096 → (s.part p).stepEnd ≠ none → g < 4096 → Completes (.groupRemove h g) s (fun t =>
      flowOnly s t ∧ t.sw = s.sw ∧ t.descs = s.descs ++ [⟨s.nextDesc, p, { h with units := 0 }, 0x03, .step, .groupRemove h g, false⟩])) ∧
  ∀ (s : State) (p : PartId) (n : Nat) (d : Desc), (s.part p).state = .active → (s.part p).stepEnd = some n → (s.part p).inStep = false →
    s.stepReady p = true → (s.part p).reload = none → s.mirrorOf p = none → s.desc n = some d → d.opcode = 0x40 →
    (∀ g ∈ s.groups, g.part = p.val → g.staged = none) → (∀ k ∈ s.keys.slots, k.part = p.val → k.staged = none) →
    Completes (.stepBoundary p) s (fun t => (t.part p).step = ((s.part p).step + 1) % 2 ^ 64 ∧ (t.part p).stepEnd = none ∧
      t.desc n = none ∧ answered s t d.part d.hdr 0x40 .ok (beBytes 8 (((s.part p).step + 1) % 2 ^ 64)))

/-- COUNTER_READ returns the values of its set in 8 octets each, and BAD_DESCRIPTOR outside the sets whatever the partition's state; the hint is
set, replaced, cleared
by a time past, and lapses; none of them changes anything else of the device (R139, R140, R435). -/
def Obligations.CountersAndHints : Prop :=
  (∀ (s : State) (h : DescHdr) (p set first n : Nat), startsAtOnce s h p → descsFresh s → 1 ≤ n → n ≤ 1024 →
    s.counterCheck p set first n = none → Completes (.counterRead h set first n) s (fun t => flowOnly s t ∧
      answered s t p h 0x50 .ok ((List.range n).flatMap (fun i => beBytes 8 (s.setValue p set (first + i) % 2 ^ 64))))) ∧
  (∀ (s : State) (h : DescHdr) (p set first n : Nat), s.resuming = none → s.ownerOf h.port h.vlan h.owner = some p → 1 ≤ n → n ≤ 1024 →
    (∀ k, s.setSize p set = some k → k < first + n) → Completes (.counterRead h set first n) s (fun t => flowOnly s t ∧
      answered s t p h 0x50 .badDescriptor [])) ∧
  (∀ (s : State) (h : DescHdr) (p : PartId) (secs ns : Nat), startsAtOnce s h p → descsFresh s → secs < 2 ^ 48 → ns < 1000000000 →
    Completes (.hintNextEvent h secs ns) s (fun t =>
      (t.part p).hint = (if s.now < secs * 1000000000 + ns then some (secs, ns) else none) ∧
      flowOnly (s.updPart p (fun q => { q with hint := (t.part p).hint })) t ∧
      if h.wantCompletion then answered s t p h 0x51 .ok [] else t.sw = s.sw)) ∧
  ∀ (s : State) (p : PartId), Completes (.hintLapse p) s (fun t => (t.part p).hint = none ∧ t = s.updPart p (fun _ => t.part p) ∧
    t.part p = { s.part p with hint := none })

/-! ### Groups and peals (R141 to R168) -/

/-- GROUP_DEFINE defines a group at once with peal base 0 where its ID is not defined, and is staged with PENDING where it is; a removal
is staged with PENDING, and receives BAD_DESCRIPTOR for an ID not defined; PEAL_STATUS answers from the books and changes nothing
(R144, R167). -/
def Obligations.GroupsDefined : Prop :=
  (∀ (s : State) (h : DescHdr) (p : Nat) (g : GroupDef), startsAtOnce s h p → descsFresh s → groupFieldsOk g = true → g.group < 4096 →
    s.defineForm p g = none → s.defineCheck p g = none → s.group p g.group = none → Completes (.groupDefine h g) s (fun t =>
      (∃ x, t.groups = s.groups ++ [x] ∧ x.part = p ∧ x.defn = g ∧ x.base = 0 ∧ x.peals = [] ∧ x.fromRecord = false) ∧
      flowOnly { s with groups := t.groups } t ∧ (h.wantCompletion = true → answered s t p h 0x03 .ok []))) ∧
  (∀ (s : State) (h : DescHdr) (p : Nat) (g : GroupDef) (x : Group), startsAtOnce s h p → descsFresh s → groupFieldsOk g = true →
    g.group < 4096 → s.defineForm p g = none → s.defineCheck p g = none → s.group p g.group = some x → Completes (.groupDefine h g) s (fun t =>
      t.group p g.group = some { x with staged := some (some g) } ∧ flowOnly { s with groups := t.groups } t ∧
      answered s t p h 0x03 .pending [])) ∧
  (∀ (s : State) (h : DescHdr) (p g : Nat) (x : Group) (r : PartRec), startsAtOnce s h p → descsFresh s → g < 4096 →
    s.conf.partOf p = some r → r.hasGroup g = true → s.group p g = some x → Completes (.groupRemove h g) s (fun t =>
      t.group p g = some { x with staged := some none } ∧ flowOnly { s with groups := t.groups } t ∧ answered s t p h 0x03 .pending [])) ∧
  (∀ (s : State) (h : DescHdr) (p g : Nat) (r : PartRec), startsAtOnce s h p → g < 4096 → s.conf.partOf p = some r →
    r.hasGroup g = true → s.group p g = none → Completes (.groupRemove h g) s (fun t =>
      flowOnly s t ∧ answered s t p h 0x03 .badDescriptor [])) ∧
  ∀ (s : State) (h : DescHdr) (p : Nat) (q : PealQuery), startsAtOnce s h p → descsFresh s → q.firstRank % 64 = 0 → q.bits % 64 = 0 →
    q.bits ≤ 8192 → q.group < 4096 → s.statusCheck p q = none → Completes (.pealStatus h q) s (fun t =>
      flowOnly s t ∧ answered s t p h 0x02 .ok (s.statusBody p q))

/-- A PEAL_START that passes its checks joins its peal, which stays OPEN while a local member is missing; the last local member takes it
to AGREEING in exact mode and to REDUCING in ordered mode, with the members that started as its contributors (R150, R160, R164). -/
def Obligations.PealsStart : Prop :=
  (∀ (s : State) (h : DescHdr) (p : Nat) (b : PealStart) (g : Group), startsAtOnce s h p → descsFresh s → State.pealFormBad b = false →
    s.pealCheck p h.stream b = none → s.windowsWait p = false → s.group p b.group = some g → s.peal p b.group b.peal = none →
    (∀ r ∈ g.retained, r.number ≠ b.peal) → (s.sliceOf g.defn.slice).closed = false → 1 < localCount g.defn →
    s.failedNeighbour p g.defn h.stream = none → Completes (.pealStart h b) s (fun t =>
      (∃ pl, t.peal p b.group b.peal = some pl ∧ pl.state = .open ∧ pl.first = some (b, h.stream, h.cls) ∧ pl.chunks = [] ∧
        pl.members = [⟨localRank g.defn b.coord, s.nextDesc, b.coord, b.src, b.dst, b.addSync, b.sync, b.syncAmount, h.cls⟩]) ∧
      (t.desc s.nextDesc).isSome = true ∧ flowOnly { s with groups := t.groups } t)) ∧
  ∀ (s : State) (h : DescHdr) (p : Nat) (b : PealStart) (g : Group) (pl : Peal), startsAtOnce s h p → descsFresh s →
    State.pealFormBad b = false → s.pealCheck p h.stream b = none → s.windowsWait p = false → s.group p b.group = some g →
    s.peal p b.group b.peal = some pl → pl.cut = none → pl.chunks = [] → pl.members.length + 1 = localCount g.defn →
    isReduce b.kind = true → s.failedNeighbour p g.defn h.stream = none → Completes (.pealStart h b) s (fun t =>
      ∃ x, t.peal p b.group b.peal = some x ∧ x.state = (if exactPeal g.defn b then .agreeing else .reducing) ∧
        x.members.map PealMember.rank = pl.members.map PealMember.rank ++ [localRank g.defn b.coord] ∧
        x.cut = some (x.members.map PealMember.rank))

/-- A peal that fails is answered to every member with the status of its failure and is retained as FAILED: MEMBER_MISSING at the
deadline of a peal still OPEN outside quorum mode, MEMBER_MISSING at the remote deadline while a message is missing, and the status that an
ABORT brings; an ABORT that no group or neighbour accounts for is counted and changes nothing else (R153, R154, R159 to R163). -/
def Obligations.PealsFail : Prop :=
  (∀ (s : State) (p : PartId) (gid n : Nat) (g : Group) (pl : Peal), s.group p gid = some g → s.peal p gid n = some pl →
    pl.state = .open → g.defn.policy ≠ 2 → Completes (.pealDeadline p gid n) s (fun t => pealFailed s t p gid n pl .memberMissing)) ∧
  (∀ (s : State) (p : PartId) (gid n : Nat) (pl : Peal), s.peal p gid n = some pl → s.missingRemote p gid n = true →
    Completes (.pealRemoteDeadline p gid n) s (fun t => pealFailed s t p gid n pl .memberMissing)) ∧
  (∀ (s : State) (p : PartId) (gid n : Nat), (∀ pl, s.peal p gid n = some pl → ∀ c ∈ pl.chunks, c.lost = false) →
    s.missingRemote p gid n = false → exec (.pealRemoteDeadline p gid n) s = .next s) ∧
  (∀ (s : State) (p : PartId) (m : CarMsg) (g : Group) (pl : Peal), s.msgGroup p m true = some g → s.peal p m.group m.peal = some pl →
    m.status ≠ .ok → Completes (.abort p m) s (fun t => pealFailed s t p m.group m.peal pl m.status)) ∧
  (∀ (s : State) (p : PartId) (m : CarMsg) (g : Group), s.msgGroup p m true = some g → (∀ x ∈ g.peals, x.number ≠ m.peal) →
    (∃ r ∈ g.retained, r.number = m.peal) → exec (.abort p m) s = .next s) ∧
  ∀ (s : State) (p : PartId) (m : CarMsg), s.msgGroup p m true = none → exec (.abort p m) s = .next (s.bump (.part p 12))

/-- What a read or a message brings is kept in its chunk, once, while other inputs of the chunk are missing: a contribution's elements
read in the input format, a child's exponents, a child's partial, the agreed exponents, the result; the same input again is a duplicate,
counted and dropped; a result's write that ends is written no longer, while others are (R155, R157 to R160, R166, R170, R181). -/
def Obligations.ChunkInputs : Prop :=
  (∀ (s u : State) (p : PartId) (gid n c r me : Nat) (x : Xfer) (g : GroupDef) (pl : Peal) (b : PealStart),
    s.takeXfer (.contribution p gid n c r false) = some (x, u) → x.status = .ok → s.flow p gid n = some (g, pl, b, me) →
    isReduce b.kind = true → exactPeal g b = false → hasProj g = false → (chunkOf pl c).lost = false →
    (∀ q ∈ (chunkOf pl c).locals, q.1 ≠ r) →
    (∃ q ∈ readersOf g b me pl, q ≠ r ∧ ∀ y ∈ (chunkOf pl c).locals, y.1 ≠ q) →
    (∀ e ∈ readElems g b [] (elemsOf b.inFmt (chunkLen b.count c) x.data), e.trap = none) →
    Completes (.contributionReadDone p gid n c false r) s (fun t => ∃ y, t.peal p gid n = some y ∧
      (chunkOf y c).locals = (chunkOf pl c).locals ++ [(r, readElems g b [] (elemsOf b.inFmt (chunkLen b.count c) x.data))] ∧
      y.state = pl.state ∧ ∀ k, k ≠ c → chunkOf y k = chunkOf pl k)) ∧
  (∀ (s : State) (p : PartId) (m : CarMsg) (G : Group) (g : GroupDef) (pl : Peal) (b : PealStart) (me : Nat),
    s.msgGroup p m false = some G → s.flow p m.group m.peal = some (g, pl, b, me) → pl.cut ≠ none → hasProj g = false →
    m.chunk < chunkCount b.count → exactPeal g b = true → State.isChild g me m = true → m.offset = 0 →
    m.length = ceilDiv (chunkLen b.count m.chunk) 64 → (chunkOf pl m.chunk).agreed = none →
    (∃ r ∈ readersOf g b me pl, r ∉ (chunkOf pl m.chunk).expLocal) →
    (∀ q ∈ (chunkOf pl m.chunk).expChildren, q.1 ≠ m.sender) → Completes (.exponentUp p m) s (fun t =>
      ∃ y, t.peal p m.group m.peal = some y ∧ (chunkOf y m.chunk).expChildren = (chunkOf pl m.chunk).expChildren ++
        [(m.sender, m.contributors, m.payload.map BitVec.toNat)] ∧ y.state = pl.state ∧ flowOnly { s with groups := t.groups } t)) ∧
  (∀ (s : State) (p : PartId) (m : CarMsg) (G : Group) (g : GroupDef) (pl : Peal) (b : PealStart) (me : Nat),
    s.msgGroup p m false = some G → s.flow p m.group m.peal = some (g, pl, b, me) → pl.cut ≠ none → hasProj g = false →
    m.chunk < chunkCount b.count → exactPeal g b = true → State.isChild g me m = true → m.offset = 0 →
    m.length = ceilDiv (chunkLen b.count m.chunk) 64 →
    (∃ q ∈ (chunkOf pl m.chunk).expChildren, q.1 = m.sender) → Completes (.exponentUp p m) s (fun t =>
      t.ctrs = (s.bump (.part p 13)).ctrs ∧ ∃ y, t.peal p m.group m.peal = some y ∧ y.chunks = pl.chunks)) ∧
  (∀ (s : State) (p : PartId) (m : CarMsg) (G : Group) (g : GroupDef) (pl : Peal) (b : PealStart) (me : Nat),
    s.msgGroup p m false = some G → s.flow p m.group m.peal = some (g, pl, b, me) → pl.cut ≠ none → hasProj g = false →
    m.chunk < chunkCount b.count → isReduce b.kind = true → State.isChild g me m = true → m.offset = 0 → 0 < m.length →
    m.length = chunkLen b.count m.chunk * pealPartial g b → (∀ q ∈ (chunkOf pl m.chunk).children, q.1 ≠ m.sender) →
    m.sender ∉ (chunkOf pl m.chunk).childrenDone → (∃ r ∈ readersOf g b me pl, r ∉ (chunkOf pl m.chunk).expLocal) →
    (∃ r ∈ readersOf g b me pl, ∀ y ∈ (chunkOf pl m.chunk).locals, y.1 ≠ r) → Completes (.partialUp p m) s (fun t =>
      ∃ y, t.peal p m.group m.peal = some y ∧ (m.sender, m.contributors, m.payload) ∈ (chunkOf y m.chunk).children ∧
        m.sender ∈ (chunkOf y m.chunk).childrenDone ∧ y.state = pl.state ∧ flowOnly { s with groups := t.groups } t)) ∧
  (∀ (s : State) (p : PartId) (m : CarMsg) (G : Group) (g : GroupDef) (pl : Peal) (b : PealStart) (me : Nat),
    s.msgGroup p m false = some G → s.flow p m.group m.peal = some (g, pl, b, me) → pl.cut ≠ none → hasProj g = false →
    m.chunk < chunkCount b.count → exactPeal g b = true → State.isParent g me m = true → m.offset = 0 →
    m.length = ceilDiv (chunkLen b.count m.chunk) 64 → (chunkOf pl m.chunk).agreed = none → (chunkOf pl m.chunk).lost = false →
    childRanks (siteCount g) (chunkTree m.chunk) me = [] →
    (∃ r ∈ readersOf g b me pl, ∀ y ∈ (chunkOf pl m.chunk).locals, y.1 ≠ r) → Completes (.exponentDown p m) s (fun t =>
      ∃ y, t.peal p m.group m.peal = some y ∧ (chunkOf y m.chunk).agreed = some (m.payload.map BitVec.toNat) ∧
        y.total = m.contributors)) ∧
  (∀ (s : State) (p : PartId) (gid n c r me k : Nat) (x : Xfer) (g : GroupDef) (pl : Peal) (b : PealStart),
    s.xfers.find? (fun y => y.use == .result p gid n c r && y.left.isEmpty) = some x → x.status = .ok →
    s.flow p gid n = some (g, pl, b, me) → k ≠ r → k ∈ (chunkOf pl c).writing →
    (pl.chunks.filter (fun y => y.number != c)).length < chunkCount b.count →
    Completes (.resultWriteDone p gid n c r) s (fun t => ∃ y, t.peal p gid n = some y ∧
      k ∈ (chunkOf y c).writing ∧ r ∉ (chunkOf y c).writing ∧ y.members = pl.members ∧ y.state = pl.state)) ∧
  ∀ (s : State) (p : PartId) (m : CarMsg) (G : Group) (g : GroupDef) (pl : Peal) (b : PealStart) (me : Nat),
    s.msgGroup p m false = some G → s.flow p m.group m.peal = some (g, pl, b, me) → pl.cut ≠ none → hasProj g = false →
    m.chunk < chunkCount b.count → b.kind = .allReduce → State.isParent g me m = true → m.offset = 0 → (chunkOf pl m.chunk).down = [] →
    0 < m.length → m.length = chunkLen b.count m.chunk * b.outFmt.size → (chunkOf pl m.chunk).result = none →
    childRanks (siteCount g) (chunkTree m.chunk) me = [] → pl.members ≠ [] →
    (pl.chunks.filter (fun x => x.number != m.chunk)).length < chunkCount b.count → Completes (.resultDown p m) s (fun t =>
      ∃ y, t.peal p m.group m.peal = some y ∧ y.total = m.contributors ∧
        (chunkOf y m.chunk).result = some [(0, (netElems b.outFmt (chunkLen b.count m.chunk) m.payload).map some)])

/-- A read or a write of a peal that a node does not answer fails the peal with TIMEOUT; the last write of the last chunk ends it, and
every member is answered with OK and the count of contributors, with its sync object added to first (R154, R160). -/
def Obligations.PealsEnd : Prop :=
  (∀ (s u : State) (p : PartId) (gid n c r : Nat) (e : Bool) (x : Xfer) (pl : Peal),
    s.takeXfer (.contribution p gid n c r e) = some (x, u) → x.status ≠ .ok → s.peal p gid n = some pl →
    Completes (.contributionReadDone p gid n c e r) s (fun t => pealFailed s t p gid n pl .timeout)) ∧
  (∀ (s u : State) (p : PartId) (gid n c r : Nat) (x : Xfer) (pl : Peal), s.takeXfer (.result p gid n c r) = some (x, u) →
    x.status ≠ .ok → s.peal p gid n = some pl →
    Completes (.resultWriteDone p gid n c r) s (fun t => pealFailed s t p gid n pl .timeout)) ∧
  (∀ (s u : State) (p : PartId) (gid n c r me : Nat) (x : Xfer) (g : GroupDef) (pl : Peal) (b : PealStart),
    s.takeXfer (.result p gid n c r) = some (x, u) → x.status = .ok → s.flow p gid n = some (g, pl, b, me) → hasProj g = false →
    chunkCount b.count = 1 → pl.chunks = [chunkOf pl c] → (chunkOf pl c).number = c → (chunkOf pl c).result ≠ none →
    (∀ q ∈ (chunkOf pl c).writing, q = r) → pl.poisoned = false → pl.saturated = false → (∀ m ∈ pl.members, m.addSync = false) →
    Completes (.resultWriteDone p gid n c r) s (fun t => t.peal p gid n = none ∧ ∀ m ∈ pl.members, ∀ d, s.desc m.desc = some d →
      d.opcode = 0x01 → answered s t d.part d.hdr 0x01 .ok (pealBody n 5 pl.total))) ∧
  ∀ (s u : State) (p : PartId) (gid n c r me : Nat) (x : Xfer) (g : GroupDef) (pl : Peal) (b : PealStart),
    s.takeXfer (.result p gid n c r) = some (x, u) → x.status = .ok → s.flow p gid n = some (g, pl, b, me) →
    (∃ q ∈ (chunkOf pl c).writing, q ≠ r) → (pl.chunks.filter (fun y => y.number != c)).length < chunkCount b.count →
    Completes (.resultWriteDone p gid n c r) s (fun t => ∃ y, t.peal p gid n = some y ∧
      (chunkOf y c).writing = (chunkOf pl c).writing.filter (fun q => q != r))

/-! ### Programs and invocations (R199 to R202, R217 to R225) -/

/-- BEGIN opens a load, DATA appends what follows in order, END with a signature that verifies installs the program at a free index or
stages it with PENDING, and one that does not verify abandons the load with NOT_PERMITTED; so does the load's time; a staged program takes its
index at the boundary once the old one runs no longer (R218, R219). -/
def Obligations.ProgramLoads : Prop :=
  (∀ (s : State) (h : DescHdr) (p : PartId) (b : ProgBegin), startsAtOnce s h p → descsFresh s → beginBad b = false →
    s.beginCheck p b = none → Completes (.progLoadBegin h b) s (fun t =>
      flowOnly (s.updPart p (fun q => { q with load := some ⟨b, []⟩ })) t ∧ (h.wantCompletion = true → answered s t p h 0x30 .ok []))) ∧
  (∀ (s : State) (h : DescHdr) (p : PartId) (l : OpenLoad) (x : Octets), startsAtOnce s h p → descsFresh s →
    (s.part p).load = some l → l.hdr.index < 256 → 1 ≤ x.length → x.length ≤ 8192 →
    l.octets.length + x.length ≤ l.hdr.textLen + l.hdr.dataLen →
    Completes (.progLoadData h l.hdr.index l.octets.length x) s (fun t =>
      flowOnly (s.updPart p (fun q => { q with load := some ⟨l.hdr, l.octets ++ x⟩ })) t ∧
      (h.wantCompletion = true → answered s t p h 0x30 .ok []))) ∧
  (∀ (s : State) (h : DescHdr) (p : PartId) (l : OpenLoad) (sig : Octets) (r : PartRec), startsAtOnce s h p → descsFresh s →
    (s.part p).load = some l → l.hdr.index < 256 → sig.length = 96 → l.octets.length = l.hdr.textLen + l.hdr.dataLen →
    s.conf.partOf p = some r → sha384 l.hdr.pubKey = r.progKeyHash → ecdsaVerify l.hdr.pubKey (beginOctets l.hdr ++ l.octets) sig = true →
    Completes (.progLoadEnd h l.hdr.index sig) s (fun t => (t.part p).load = none ∧
      if s.prog p l.hdr.index = none then ∃ g, t.prog p l.hdr.index = some g ∧ g.text = l.octets.take l.hdr.textLen ∧
        g.data = l.octets.drop l.hdr.textLen ∧ g.entry = l.hdr.entry ∧ g.cores = l.hdr.cores ∧ g.watchdog = l.hdr.watchdog
      else t.progs = s.progs ∧ answered s t p h 0x30 .pending [])) ∧
  (∀ (s : State) (h : DescHdr) (p : PartId) (l : OpenLoad) (sig : Octets), startsAtOnce s h p → descsFresh s →
    (s.part p).load = some l → l.hdr.index < 256 → sig.length = 96 → l.octets.length = l.hdr.textLen + l.hdr.dataLen →
    ecdsaVerify l.hdr.pubKey (beginOctets l.hdr ++ l.octets) sig = false → Completes (.progLoadEnd h l.hdr.index sig) s (fun t =>
      flowOnly (s.updPart p (fun q => { q with load := none })) t ∧ answered s t p h 0x30 .notPermitted [])) ∧
  (∀ (s : State) (p : PartId), exec (.progLoadTimeout p) s = .next (s.updPart p (fun q => { q with load := none }))) ∧
  ∀ (s : State) (p : PartId) (n : Nat) (g : ProgImage), (s.part p).stagedProgs.find? (fun x => x.1.index == n) = some (g, true) →
    g.part = p.val → (∀ v ∈ s.invs, v.part = p.val → v.index ≠ n) → Completes (.progImageSwap p n) s (fun t =>
      t.prog p n = some g ∧ (∀ x ∈ (t.part p).stagedProgs, x.1.index ≠ n) ∧ t = { s with progs := t.progs, parts := t.parts })

/-- PROG_INVOKE queues an invocation on its cluster with the partition's next number; it starts when enough cores are free, each core
with the arguments, the stack pointer and the entry of R199; when it has ended and has no work left its cores are free and its sender is
told, and one of a projection is taken back by its peal (PROJECTION_DONE) and is no more (R199, R202, R221, R222, R224). -/
def Obligations.Invocations : Prop :=
  (∀ (s : State) (h : DescHdr) (p : PartId) (b : ProgInvoke) (c : ClusterId) (g : ProgImage), startsAtOnce s h p → descsFresh s →
    b.index < 256 → b.cluster = c.val → b.sync < 16384 → b.args.length = 8 → s.invokeCheck p b = none → s.prog p b.index = some g →
    Completes (.progInvoke h b) s (fun t => (∃ v, t.invs = s.invs ++ [v] ∧ v.part = p.val ∧ v.number = (s.part p).nextInvocation ∧
        v.cluster = c.val ∧ v.image = g ∧ v.args = b.args ∧ v.purpose = .desc s.nextDesc ∧ v.cores = [] ∧ v.ended = none ∧
        (t.cluster c).waiting = (s.cluster c).waiting ++ [v.id]) ∧
      (t.part p).nextInvocation = ((s.part p).nextInvocation + 1) % 2 ^ 32 ∧ (none, .invocationStart c) ∈ t.handed ∧
      (t.desc s.nextDesc).isSome = true)) ∧
  (∀ (s : State) (c : ClusterId) (v : Invocation), (s.cluster c).waiting.head?.bind s.inv = some v → s.clusterReady c = true →
    v.image.cores ≤ (s.freeCores c).length → Completes (.invocationStart c) s (fun t =>
      (∀ (i k : Nat), ((s.freeCores c).take v.image.cores)[i]? = some k → t.core k = coreStart v i (s.core k)) ∧
      t.inv v.id = some { v with cores := (s.freeCores c).take v.image.cores } ∧
      (t.cluster c).waiting = (s.cluster c).waiting.drop 1)) ∧
  (∀ (v : Invocation) (i : Nat) (c : Core), v.args.length = 8 → (coreStart v i c).pc = BitVec.ofNat 64 v.image.entry ∧
    (coreStart v i c).reg 2 = 0x00120000 ∧ (coreStart v i c).reg 0 = 0 ∧ (∀ j, j < 8 → (coreStart v i c).reg (10 + j) = v.args.getD j 0) ∧
    (∀ r, r < 32 → r ≠ 2 → (r < 10 ∨ 18 ≤ r) → (coreStart v i c).reg r = 0)) ∧
  (∀ (s : State) (n dn : Nat) (v : Invocation) (d : Desc), s.inv n = some v → v.ended = some .exit → s.workLeft n = false →
    v.purpose = .desc dn → v.addSync = false → s.desc dn = some d → d.opcode = 0x31 → Completes (.invocationEnd n) s (fun t =>
      t.inv n = none ∧ (∀ k ∈ v.cores, (t.core k).inv = none ∧ (t.core k).running = false) ∧
      answered s t d.part d.hdr 0x31 (if v.poisoned then .poisonedNan else v.status) (invBody v))) ∧
  ∀ (s : State) (n gid num c role slot : Nat) (v : Invocation), s.inv n = some v → n < s.nextInv →
    v.purpose = .projection gid num c role slot → v.ended ≠ none → v.cores = [] →
    Completes (.projectionDone n) s (fun t => t.inv n = none)

/-- The watchdog ends the whole invocation with HANG_RESTART and counts it; a projection that ends so fails its peal with HANG_RESTART;
one that ends as it should gives the chunk its projected vector (R222 to R225). -/
def Obligations.WatchdogAndProjection : Prop :=
  (∀ (s : State) (k : CoreId) (v : Invocation), s.invOf k = some v → (s.core k).running = true → v.ended = none →
    Completes (.watchdogExpiry k) s (fun t =>
      (∃ w, t.inv v.id = some w ∧ w.ended = some .watchdog ∧ w.status = .hangRestart) ∧
      (∀ j ∈ v.cores, (t.core j).running = false) ∧ t.ctrs = (s.bump (.part v.part 3)).ctrs)) ∧
  (∀ (s : State) (n gid num c role slot : Nat) (v : Invocation) (x : GroupDef × Peal × PealStart × Nat), s.inv n = some v →
    v.purpose = .projection gid num c role slot → v.ended = some .watchdog → v.cores = [] → s.flow v.part gid num = some x →
    Completes (.projectionDone n) s (fun t => t.peal v.part gid num = none)) ∧
  ∀ (s : State) (n gid num c slot me : Nat) (v : Invocation) (g : GroupDef) (pl : Peal) (b : PealStart), s.inv n = some v →
    v.purpose = .projection gid num c 0 slot → v.ended = some .exit → v.cores = [] → s.flow v.part gid num = some (g, pl, b, me) →
    1 ≤ v.exit.toNat → v.exit.toNat ≤ (v.args.getD 7 0).toNat → exactPeal g b = false →
    fmtOfCode ((v.args.getD 1 0).toNat / 65536 % 256) = some b.inFmt →
    s.access v.part .scratch v.cluster (0x7E0000 + 0x8000 * slot + 0x4000) (v.exit.toNat * b.inFmt.size) .read = true →
    s.projWaiting v.part = [] → (∃ k ∈ childRanks (siteCount g) (chunkTree c) me, k ∉ (chunkOf pl c).childrenDone) →
    (∀ x ∈ s.groups, ∀ q ∈ x.peals, ∀ y ∈ q.chunks, y.projRole ≠ none → y.result = none) →
      Completes (.projectionDone n) s (fun t => ∃ y, t.peal v.part gid num = some y ∧
      (chunkOf y c).projected = some (elemsOf b.inFmt v.exit.toNat
        (s.readLocal .scratch v.cluster (0x7E0000 + 0x8000 * slot + 0x4000) (v.exit.toNat * b.inFmt.size))))

/-! ### Tabor cores (R195 to R201, R203) -/

/-- The integer instructions write their destination and retire, jumps and branches set the pc, loads and stores of data memory move
exactly their octets; nothing else of the device changes (R195, R196). -/
def Obligations.CoreInstructions : Prop :=
  (∀ (s : State) (k : CoreId) (len : Nat) (op : AluOp) (w : Bool) (rd rs1 rs2 : Nat) (imm : Int),
    (fetches s k len (.aluImm op w rd rs1 imm) → exec (.taborInstruction k) s = .next (s.updCore k (fun c =>
      (c.setReg rd (aluOf w op (c.reg rs1) (BitVec.ofInt 64 imm))).retire len))) ∧
    (fetches s k len (.alu op w rd rs1 rs2) → exec (.taborInstruction k) s = .next (s.updCore k (fun c =>
      (c.setReg rd (aluOf w op (c.reg rs1) (c.reg rs2))).retire len)))) ∧
  (∀ (s : State) (k : CoreId) (len rd : Nat) (imm : Int),
    (fetches s k len (.lui rd imm) → exec (.taborInstruction k) s = .next (s.updCore k (fun c =>
      (c.setReg rd (BitVec.ofInt 64 imm)).retire len))) ∧
    (fetches s k len (.jal rd imm) → exec (.taborInstruction k) s = .next (s.updCore k (fun c =>
      { c.setReg rd (c.pc + BitVec.ofNat 64 len) with pc := c.pc + BitVec.ofInt 64 imm, instret := c.instret + 1 })))) ∧
  (∀ (s : State) (k : CoreId) (len f3 rs1 rs2 : Nat) (imm : Int), fetches s k len (.branch f3 rs1 rs2 imm) →
    exec (.taborInstruction k) s = .next (s.updCore k (fun c => { c with
      pc := if branchTaken f3 (c.reg rs1) (c.reg rs2) then c.pc + BitVec.ofInt 64 imm else c.pc + BitVec.ofNat 64 len,
      instret := c.instret + 1 }))) ∧
  (∀ (s : State) (k : CoreId) (len f3 rd rs1 a : Nat) (imm : Int), fetches s k len (.load f3 rd rs1 imm) →
    a = addrOf ((s.core k).reg rs1) imm → a % accessWidth f3 = 0 → dmemBase ≤ a → a + accessWidth f3 ≤ dmemEnd →
    exec (.taborInstruction k) s = .next (s.updCore k (fun c =>
      (c.setReg rd (loadValue f3 (leNat (memRead 0 c.dmem a (accessWidth f3))))).retire len))) ∧
  ∀ (s : State) (k : CoreId) (len f3 rs1 rs2 a : Nat) (imm : Int), fetches s k len (.store f3 rs1 rs2 imm) →
    a = addrOf ((s.core k).reg rs1) imm → a % accessWidth f3 = 0 → dmemBase ≤ a → a + accessWidth f3 ≤ dmemEnd →
    Completes (.taborInstruction k) s (fun t =>
      (∀ n, memByte 0 (t.core k).dmem n = if a ≤ n ∧ n < a + accessWidth f3
        then (leBytes (accessWidth f3) ((s.core k).reg rs2).toNat).getD (n - a) 0 else memByte 0 (s.core k).dmem n) ∧
      t.core k = { (s.core k).retire len with dmem := (t.core k).dmem, reserve := (t.core k).reserve } ∧
      (∀ j : CoreId, j ≠ k → t.core j = { s.core j with reserve := (t.core j).reserve }) ∧ t = { s with cores := t.cores })

/-- An illegal instruction ends the invocation with its exception, the pc of the instruction in mepc; a misaligned load ends it with
cause 4 and its address in mtval; an ECALL of the last core that runs ends the invocation with core 0's a0, one of another core ends that
core alone, and with a7 = 1 the whole invocation; at a watchdog expiry (WATCHDOG_EXPIRY) it ends with HANG_RESTART and nothing of an exception
(R195, R200, R201, R222, R223). -/
def Obligations.CoresEnd : Prop :=
  (∀ (s : State) (k : CoreId) (len : Nat) (v : Invocation), fetches s k len .illegal → s.invOf k = some v → v.ended = none →
    Completes (.taborInstruction k) s (fun t => (∃ w, t.inv v.id = some w ∧ w.ended = some .exception ∧ w.status = .badDescriptor ∧
        w.mcause = 2 ∧ w.mepc = (s.core k).pc.toNat ∧ w.core = (s.core k).hart) ∧
      (t.core k).mcause = 2 ∧ (t.core k).mepc = (s.core k).pc ∧ (t.core k).regs = (s.core k).regs ∧ t.freeCtr = s.freeCtr + 1)) ∧
  (∀ (s : State) (k : CoreId) (len f3 rd rs1 a : Nat) (imm : Int) (v : Invocation), fetches s k len (.load f3 rd rs1 imm) →
    s.invOf k = some v → v.ended = none → a = addrOf ((s.core k).reg rs1) imm → a % accessWidth f3 ≠ 0 →
    Completes (.taborInstruction k) s (fun t => ∃ w, t.inv v.id = some w ∧ w.ended = some .exception ∧ w.status = .badDescriptor ∧
      w.mcause = 4 ∧ w.mtval = a ∧ w.mepc = (s.core k).pc.toNat)) ∧
  (∀ (s : State) (k : CoreId) (v : Invocation), s.coreReady k = true → s.invOf k = some v → v.ended = none →
    (∀ j ∈ v.cores, j % 256 ≠ k.val → (s.core j).running = false) → Completes (.ecallEndCore k) s (fun t =>
      (∃ w, t.inv v.id = some w ∧ w.ended = some .exit ∧ w.status = .ok ∧ w.exit = s.exitValue v) ∧ (t.core k).running = false)) ∧
  (∀ (s : State) (k : CoreId) (v : Invocation), s.coreReady k = true → s.invOf k = some v →
    (∃ j ∈ v.cores, j % 256 ≠ k.val ∧ (s.core j).running = true) →
    exec (.ecallEndCore k) s = .next (s.updCore k (fun c => { c with running := false }))) ∧
  (∀ (s : State) (k : CoreId) (v : Invocation), s.invOf k = some v → (s.core k).running = true → v.ended = none →
    Completes (.watchdogExpiry k) s (fun t => ∃ w, t.inv v.id = some w ∧ w.ended = some .watchdog ∧ w.status = .hangRestart ∧
      w.exit = 0 ∧ w.mcause = 0 ∧ w.mepc = 0 ∧ w.mtval = 0)) ∧
  ∀ (s : State) (k : CoreId) (v : Invocation), s.coreReady k = true → s.invOf k = some v → v.ended = none →
    Completes (.ecallEndInvocation k) s (fun t => (∃ w, t.inv v.id = some w ∧ w.ended = some .exit ∧ w.status = .ok ∧
      w.exit = s.exitValue v) ∧ ∀ j ∈ v.cores, (t.core j).running = false)

/-- A write of a stream CSR sets its fields as the access codes say: a window keeps its reserved bits 0, the sticky flags of SSTATUS are
cleared by ones, SSCALAR takes 32 bits, SCOUNT and SINV take nothing; a CSR that cannot be written changes nothing. A write to a word of
management space is handed to its own row for WATCHDOG, READ_SEQ and GO, sets LENGTH or four octets of the record buffer, and does
nothing to any other word (R5, R7, R203, R442, R445, R456, R458). -/
def Obligations.RegisterWrites : Prop :=
  (∀ (s : State) (k : CoreId) (i : Fin 16) (v : Word64), exec (.registerWrite (.csr k (0x7C0 + i.val)) v) s =
    .next (s.updCore k (fun c => { c with windows := c.windows.set i (v &&& windowMask) }))) ∧
  (∀ (s : State) (k : CoreId) (v : Word64), exec (.registerWrite (.csr k 0x7D0) v) s = .next (s.updCore k (fun c => { c with
    statusTrunc := c.statusTrunc && !v.getLsbD 1, statusIndex := c.statusIndex && !v.getLsbD 0 }))) ∧
  (∀ (s : State) (k : CoreId) (v : Word64), exec (.registerWrite (.csr k 0x7D2) v) s =
    .next (s.updCore k (fun c => { c with sscalar := v.setWidth 32 }))) ∧
  (∀ (s : State) (k : CoreId) (a : Nat) (v : Word64), (a < 0x7C0 ∨ a = 0x7D1 ∨ 0x7D3 ≤ a) →
    exec (.registerWrite (.csr k a) v) s = .next s) ∧
  (∀ (s : State) (v : Word64), exec (.registerWrite (.mgmt 0x1010) v) s = .next (s.hand (.watchdogWrite (v.setWidth 32))) ∧
    exec (.registerWrite (.mgmt 0x100004) v) s = .next (s.hand (.readSeqWrite (v.toNat % 2 ^ 32))) ∧
    exec (.registerWrite (.mgmt 0x200000) v) s = .next (if v.getLsbD 0 then s.hand .go else s) ∧
    exec (.registerWrite (.mgmt 0x200008) v) s = .next { s with mail := { s.mail with length := v.toNat % 2 ^ 25 } }) ∧
  (∀ (s : State) (a : Nat) (v : Word64), 0x1000000 ≤ a → a + 4 ≤ 0x2000000 → Completes (.registerWrite (.mgmt a) v) s (fun t =>
    (∀ n, memByte 0 t.mail.buffer n = if 0x1000000 + n < a ∨ a + 4 ≤ 0x1000000 + n then memByte 0 s.mail.buffer n
      else (leBytes 4 (v.toNat % 2 ^ 32)).getD (0x1000000 + n - a) 0) ∧
    t = { s with mail := { s.mail with buffer := t.mail.buffer } })) ∧
  ∀ (s : State) (a : Nat) (v : Word64), a ≠ 0x1010 → a ≠ 0x100004 → a ≠ 0x200000 → a ≠ 0x200008 → (a < 0x1000000 ∨ 0x2000000 < a + 4) →
    exec (.registerWrite (.mgmt a) v) s = .next s

/-! ### Stream instructions, DMA, matrix engines, check values (R203 to R216, R226 to R241) -/

/-- Every stream instruction whose form and windows R204 and R205 allow is issued into its cluster's queue and changes no memory; SWAIT
waits while one of the core's is left, and else reads SSTATUS (R206, R214). -/
def Obligations.StreamsIssued : Prop :=
  (∀ (s : State) (k : CoreId) (f : StreamFields) (v : Invocation),
    (streamReady s k .ssum f v → Completes (.ssum k f) s (fun t => streamIssued s t k .ssum f v)) ∧
    (streamReady s k .smap f v → Completes (.smap k f) s (fun t => streamIssued s t k .smap f v)) ∧
    (streamReady s k .sscan f v → Completes (.sscan k f) s (fun t => streamIssued s t k .sscan f v)) ∧
    (streamReady s k .sgather f v → Completes (.sgather k f) s (fun t => streamIssued s t k .sgather f v)) ∧
    (streamReady s k .sfilter f v → Completes (.sfilter k f) s (fun t => streamIssued s t k .sfilter f v)) ∧
    (streamReady s k .ssort f v → Completes (.ssort k f) s (fun t => streamIssued s t k .ssort f v)) ∧
    (streamReady s k .smerge f v → Completes (.smerge k f) s (fun t => streamIssued s t k .smerge f v))) ∧
  (∀ (s : State) (k : CoreId) (rd : Fin 32), s.coreReady k = true → (∀ j ∈ (s.cluster (k.val / 16)).streamQ, j.core ≠ k.val) →
    exec (.swait k rd) s = .next (s.updCore k (fun c => (c.setReg rd (s.sstatus k)).retire 4))) ∧
  ∀ (s : State) (k : CoreId) (rd : Fin 32), s.coreReady k = true → (∃ j ∈ (s.cluster (k.val / 16)).streamQ, j.core = k.val) →
    exec (.swait k rd) s = .next (s.updCore k (fun c => { c with stall := .swait rd }))

/-- The instruction at the head of a cluster's queue ends: its results reach its destination window and nothing else of scratch or Basalt
changes, SSTATUS and SCOUNT take what it reports, and it leaves the queue, whether or not its invocation has ended (R202, R206 to R212). That the
work is done at its end is the
model's form (log entry 17). -/
def Obligations.StreamResults : Prop :=
  ∀ (s : State) (c : ClusterId) (j : StreamJob) (r : List StreamJob) (v : Invocation) (d a : SWin) (b : Option SWin),
    (s.cluster c).streamQ = j :: r → s.inv j.inv = some v → winOf j.rd = some d → winOf j.rs1 = some a →
    (if streamUsesRs2 j.op j.modifier then winOf j.rs2 else none) = b → j.op ≠ .ssort →
    streamClash j.op (streamDests j.op d b) (streamSources j.op a b) = false → noMatrixOpen s →
    let get (w : SWin) : List Nat := elemsOf w.fmt w.count (s.readLocal .scratch c w.base w.length)
    let res := streamCompute j d a b (get a) ((b.map get).getD [])
    res.trap = none → Completes (.streamInstructionDone c) s (fun t => (t.cluster c).streamQ = r ∧
      onlyStored s t .scratch c d.base (streamBytes d.fmt (s.readLocal .scratch c d.base (res.out.length * d.fmt.size)) res.out) ∧
      (t.core j.core).statusTrunc = ((s.core j.core).statusTrunc || res.trunc) ∧
      (t.core j.core).statusIndex = ((s.core j.core).statusIndex || res.index) ∧
      (t.core j.core).scount = (res.scount.map (BitVec.ofNat 32)).getD (s.core j.core).scount)

/-- SDMA gives a ticket and queues the transfer, or ends the ticket with its status before an octet moves; DWAIT returns a ticket's status among
the 256 latest,
waits for one outstanding, and answers BAD_DESCRIPTOR for one unknown; a transfer between device-local memories writes exactly the
octets it read (R214, R215). That the work is done at its end is the model's form (log entry 17). -/
def Obligations.DmaTransfers : Prop :=
  (∀ (s : State) (k : CoreId) (rs1 rd : Fin 32) (v : Invocation) (a : Nat), s.coreReady k = true → s.invOf k = some v →
    a = ((s.core k).reg rs1).toNat → a % 8 = 0 → dmemBase ≤ a → a + 32 ≤ dmemEnd → s.windowsWait v.part = false →
    openTickets (s.core k).dmaTickets < 16 → s.dmaCheck v.part (dmaBlock (memRead 0 (s.core k).dmem a 32)) = none →
    Completes (.sdma k rs1 rd) s (fun t => (t.core k).regs = ((s.core k).setReg rd (BitVec.ofNat 64 (s.core k).dmaNext)).regs ∧
      (t.core k).pc = (s.core k).pc + 4 ∧ (t.core k).dmaNext = ((s.core k).dmaNext + 1) % 65536 ∧
      (t.core k).dmaTickets = addTicket (s.core k).dmaNext (s.core k).dmaTickets ∧
      (t.cluster v.cluster).dmaQ.map DmaJob.block = (s.cluster v.cluster).dmaQ.map DmaJob.block ++ [memRead 0 (s.core k).dmem a 32])) ∧
  (∀ (s : State) (k : CoreId) (rs1 rd : Fin 32) (v : Invocation) (a : Nat) (st : Status), s.coreReady k = true →
    s.invOf k = some v → a = ((s.core k).reg rs1).toNat → a % 8 = 0 → dmemBase ≤ a → a + 32 ≤ dmemEnd →
    s.windowsWait v.part = false → openTickets (s.core k).dmaTickets < 16 →
    s.dmaCheck v.part (dmaBlock (memRead 0 (s.core k).dmem a 32)) = some st → Completes (.sdma k rs1 rd) s (fun t =>
      (t.core k).dmaTickets.lookup (s.core k).dmaNext = some (some st) ∧ t = { s with cores := t.cores })) ∧
  (∀ (s : State) (k : CoreId) (rs1 rd : Fin 32) (n : Nat), s.coreReady k = true → n = ((s.core k).reg rs1).toNat →
    (∀ st, findTicket (s.core k).dmaNext n (s.core k).dmaTickets = some (some st) → exec (.dwait k rs1 rd) s =
      .next (s.updCore k (fun c => (c.setReg rd (BitVec.ofNat 64 (statusCode st))).retire 4))) ∧
    (findTicket (s.core k).dmaNext n (s.core k).dmaTickets = some none → exec (.dwait k rs1 rd) s =
      .next (s.updCore k (fun c => { c with stall := .dwait n rd }))) ∧
    (findTicket (s.core k).dmaNext n (s.core k).dmaTickets = none → exec (.dwait k rs1 rd) s =
      .next (s.updCore k (fun c => (c.setReg rd 13).retire 4)))) ∧
  ∀ (s : State) (c : ClusterId) (j : DmaJob) (r : List DmaJob) (sp dp : Space), (s.cluster c).dmaQ = j :: r → j.started = true →
    (s.core j.core).inv = some j.inv → noMatrixOpen s →
    let b := dmaBlock j.block
    dmaSpace b.srcSpace = some sp → dmaSpace b.dstSpace = some dp → sp ≠ .global → dp = .scratch ∨ dp = .basalt →
    (dp = .scratch → b.dstCluster < 16) →
    let x := s.dmaRead j.core (some sp) b.srcCluster b.src b.length
    Completes (.dmaDone c) s (fun t => onlyStored s t dp b.dstCluster b.dst x ∧
      (((s.core j.core).dmaTickets.lookup j.ticket).isSome = true → (t.core j.core).dmaTickets.lookup j.ticket = some (some .ok)))

/-- MSUB gives a ticket and queues its command at the engine it names, and BAD_DESCRIPTOR for an engine that does not exist; MWAIT returns a
ticket's status and frees the command's ranges; a command whose operands are as R234 wants writes the product to C and to nothing else,
and one that is refused writes nothing (R214, R216, R230 to R235). That the work is done at its end is the model's form (log entry 17). -/
def Obligations.MatrixCommands : Prop :=
  (∀ (s : State) (k : CoreId) (rs1 rd : Fin 32) (v : Invocation) (a : Nat), s.coreReady k = true → s.invOf k = some v →
    a = ((s.core k).reg rs1).toNat → a % 8 = 0 → dmemBase ≤ a → a + 64 ≤ dmemEnd → s.windowsWait v.part = false →
    openTickets (s.core k).matTickets < 32 → v.cluster < 16 →
    let x := memRead 0 (s.core k).dmem a 64
    let e := 4 * v.cluster + (matCmd x).engine
    (4 ≤ (matCmd x).engine → Completes (.msub k rs1 rd) s (fun t =>
      (t.core k).matTickets.lookup (s.core k).matNext = some (some .badDescriptor) ∧ t = { s with cores := t.cores })) ∧
    ((matCmd x).engine < 4 → (s.engine e).faulty = false → (s.engine e).queue.length < 8 → Completes (.msub k rs1 rd) s (fun t =>
      (t.engine e).queue = (s.engine e).queue ++ [⟨k, v.id, (s.core k).matNext, x⟩] ∧
      (t.core k).regs = ((s.core k).setReg rd (BitVec.ofNat 64 (s.core k).matNext)).regs ∧
      (t.core k).matTickets = addTicket (s.core k).matNext (s.core k).matTickets ∧
      t = { s with cores := t.cores, engines := t.engines, invs := t.invs }))) ∧
  (∀ (s : State) (k : CoreId) (rs1 rd : Fin 32) (n : Nat) (st : Status), s.coreReady k = true → n = ((s.core k).reg rs1).toNat →
    findTicket (s.core k).matNext n (s.core k).matTickets = some (some st) → exec (.mwait k rs1 rd) s = .next (s.updCore k (fun c =>
      ({ c with matOpen := c.matOpen.filter (fun w => w.ticket != n) }.setReg rd (BitVec.ofNat 64 (statusCode st))).retire 4))) ∧
  (∀ (s : State) (e : EngineId) (j : MatJob) (r : List MatJob) (v : Invocation) (fa fb : Fmt) (rows cols : List (List Nat)),
    (s.engine e).queue = j :: r → s.inv j.inv = some v → (s.core j.core).inv = some j.inv →
    (∀ x ∈ s.cores.toList, ∀ w ∈ x.matOpen, w.engine = e.val ∧ w.raced = false) →
    s.matInput v.part (e.val / 4) (matCmd j.block) = .ready fa fb rows cols →
    let m := matCmd j.block
    let res := matProduct m.strict m.zero fa fb m.k (elemsOf .fp32 4096 (s.readLocal .scratch (e.val / 4) m.cAddr 16384)) rows cols
    res.trap = none → Completes (.matrixCommandDone e) s (fun t => (t.engine e).queue = r ∧
      onlyStored s t .scratch (e.val / 4) m.cAddr (elemBytes .fp32 res.cells) ∧
      (((s.core j.core).matTickets.lookup j.ticket).isSome = true → (t.core j.core).matTickets.lookup j.ticket = some (some .ok)))) ∧
  ∀ (s : State) (e : EngineId) (j : MatJob) (r : List MatJob) (v : Invocation) (st : Status), (s.engine e).queue = j :: r →
    s.inv j.inv = some v → (∀ x ∈ s.cores.toList, ∀ w ∈ x.matOpen, w.engine = e.val ∧ w.raced = false) →
    s.matInput v.part (e.val / 4) (matCmd j.block) = .refused st →
    Completes (.matrixCommandDone e) s (fun t => (t.engine e).queue = r ∧ t.basalt = s.basalt ∧
      ∀ c : ClusterId, (t.cluster c).scratch = (s.cluster c).scratch)

/-- The check-value unit: CVLOCK takes a free lock and else waits for it; CVUNLOCK passes it to the core that has waited longest;
CV_CTRL chooses the algorithm and loads its initial value; CV_DATA feeds octets, least significant first; CV_RESULT reads the value; a
core without the lock has an access fault (R226 to R229). -/
def Obligations.CheckValues : Prop :=
  (∀ (s : State) (k : CoreId) (rd : Fin 32), s.coreReady k = true → (s.cluster (k.val / 16)).cvHolder = none →
    exec (.cvlock k rd) s = .next ((s.updCluster (k.val / 16) (fun c => { c with cvHolder := some k })).updCore k (fun c =>
      (c.setReg rd 0).retire 4))) ∧
  (∀ (s : State) (k : CoreId) (rd : Fin 32) (h : Nat), s.coreReady k = true → (s.cluster (k.val / 16)).cvHolder = some h → h ≠ k.val →
    exec (.cvlock k rd) s = .next ((s.updCluster (k.val / 16) (fun c => { c with cvWaiting := c.cvWaiting ++ [k.val] })).updCore k (fun c =>
      { c with stall := .cvlock rd }))) ∧
  (∀ (s : State) (k : CoreId) (rd : Fin 32) (w : Nat) (l : List Nat), s.coreReady k = true →
    (s.cluster (k.val / 16)).cvHolder = some k.val → (s.cluster (k.val / 16)).cvWaiting = w :: l → Completes (.cvunlock k rd) s (fun t =>
      (t.cluster (k.val / 16)).cvHolder = some w ∧ (t.cluster (k.val / 16)).cvWaiting = l ∧
      t = { s with cores := t.cores, clusters := t.clusters })) ∧
  (∀ (s : State) (k : CoreId) (width : Nat) (v : Word64) (code : Nat), s.coreReady k = true → s.holdsLock k = true →
    (s.cluster (k.val / 16)).cvFaulty = false → width ≤ 4 → code = v.toNat % 256 ^ width % 8 → code < 5 →
    exec (.cvCtrlWrite k width v) s = .next ((s.updCluster (k.val / 16) (fun c =>
      { c with cvAlg := code, cvReg := ((crcOfCode code).map CrcAlg.init).getD 0, cvBusy := false })).updCore k (fun c =>
      c.retire (s.lengthAt k)))) ∧
  (∀ (s : State) (k : CoreId) (width : Nat) (v : Word64) (a : CrcAlg), s.coreReady k = true → s.holdsLock k = true →
    (s.cluster (k.val / 16)).cvFaulty = false → width ≤ 4 → crcOfCode (s.cluster (k.val / 16)).cvAlg = some a →
    (s.cluster (k.val / 16)).cvBusy = false → exec (.cvDataWrite k width v) s = .next ((s.updCluster (k.val / 16) (fun c =>
      { c with cvReg := (leBytes width (v.toNat % 256 ^ width)).foldl (crcOctet a) c.cvReg, cvBusy := true })).updCore k (fun c =>
      c.retire (s.lengthAt k)))) ∧
  (∀ (s : State) (k : CoreId) (rd : Fin 32), s.coreReady k = true → s.holdsLock k = true →
    (s.cluster (k.val / 16)).cvFaulty = false → (s.cluster (k.val / 16)).cvBusy = false → exec (.cvResultRead k rd) s =
      .next (s.updCore k (fun c => (c.setReg rd (loadValue 3 (cvResult (s.cluster (k.val / 16)) % 256 ^ 8))).retire (s.lengthAt k)))) ∧
  (∀ (s : State) (k : CoreId) (v : Word64) (i : Invocation), s.coreReady k = true → s.holdsLock k = false → s.invOf k = some i →
    i.ended = none → Completes (.cvDataWrite k 1 v) s (fun t => ∃ w, t.inv i.id = some w ∧ w.ended = some .exception ∧ w.mcause = 7 ∧
      w.mtval = 0x02000008)) ∧
  ∀ (s : State) (c : ClusterId), Completes (.checkValueUnitFree c) s (fun t => (t.cluster c).cvBusy = false ∧
    t = { s with clusters := t.clusters, cores := t.cores, handed := t.handed } ∧
    ∀ (k : CoreId) (i : Instr), k.val / 16 = c.val → (s.core k).stall = .retry i → (t.core k).stall = .none ∧ (none, i) ∈ t.handed)

/-- A TENSOR_LOAD whose checks pass joins its expander; when its source has been read it is placed as it is, or expanded, into its
destination and nothing else of scratch or Basalt, with OK and the tensor's size in its completion; a tensor that does not open leaves
its destination alone (R242 to R245). That the work is done at its end is the model's form (log entry 17). -/
def Obligations.TensorLoads : Prop :=
  (∀ (s : State) (h : DescHdr) (p : Nat) (t : TensorLoad), startsAtOnce s h p → descsFresh s → s.isFull p 0x32 = false → s.windowsWait p = false →
    s.tensorCheck p h.stream t = none → s.expanders.length = 2 → t.srcSpace ≠ .global →
    (tensorBad s h t false = false → Completes (.tensorPlace h t) s (fun u => tensorQueued s u p h false t)) ∧
    (tensorBad s h t true = false → Completes (.tensorExpand h t) s (fun u => tensorQueued s u p h true t))) ∧
  (∀ (s : State) (d : Fin 2) (j : TensorJob) (l : List TensorJob) (h : CctHeader) (e : Desc), s.expander d.val = j :: l →
    s.expanders.length = 2 → j.op.srcSpace ≠ .global → j.op.dstSpace = .scratch ∨ j.op.dstSpace = .basalt →
    (j.op.dstSpace = .scratch → j.op.dstCluster < 16) →
    (j.op.dstSpace = .basalt → s.writesWait j.op.dst j.op.capacity = false) → noMatrixOpen s →
    s.tensorHeader j (s.readLocal j.op.srcSpace j.op.srcCluster j.op.src 480) = .ok h →
    let x := s.readLocal j.op.srcSpace j.op.srcCluster j.op.src h.total
    firstDefect h x (List.range h.tiles) = none → s.desc j.desc = some e → e.opcode = 0x32 → Completes (.tensorLoadDone d) s (fun u =>
      onlyStored s u j.op.dstSpace j.op.dstCluster j.op.dst (if j.expand then expandBytes h x else x) ∧ u.expander d.val = l ∧
      answered s u e.part e.hdr 0x32 .ok (tensorBody (some h) noTile))) ∧
  ∀ (s : State) (d : Fin 2) (j : TensorJob) (l : List TensorJob) (st : Status) (x : Octets) (e : Desc), s.expander d.val = j :: l →
    s.expanders.length = 2 → j.op.srcSpace ≠ .global → (j.op.dstSpace = .basalt → s.writesWait j.op.dst j.op.capacity = false) →
    s.tensorHeader j (s.readLocal j.op.srcSpace j.op.srcCluster j.op.src 480) = .error (st, x) → s.desc j.desc = some e →
    e.opcode = 0x32 → x ≠ [] → Completes (.tensorLoadDone d) s (fun u => u.basalt = s.basalt ∧ u.clusters = s.clusters ∧
      u.expander d.val = l ∧ answered s u e.part e.hdr 0x32 st x)

/-! ### Faults of units (R26 to R29, R412) -/

/-- A fault of a unit ends what uses it with the status of a hang or TIMEOUT and leaves the unit out; a corrected error is only counted; a
faulty adder group waits for the step boundaries of the partitions with weight on its slice; in a closed slice without open peals the
groups that wait for none are substituted, or the slice is retired where one has used its spare, and what it held goes on (R26, R28, R29,
R412). Which adder group is hit is a free value (log entry 3). What else a
fault leaves open follows log entry 33. -/
def Obligations.UnitsFail : Prop :=
  (∀ (s : State) (d : DieId), exec (.unitFault (.corrected d)) s = .next (s.bump (.eccCorr d))) ∧
  (∀ (s : State) (k : CoreId), (s.core k).inv = none →
    exec (.unitFault (.tabor k)) s = .next (s.updCore k (fun c => { c with faulty := true }))) ∧
  (∀ (s : State) (k : CoreId) (v : Invocation), (s.core k).inv = some v.id → s.inv v.id = some v → v.ended = none →
    Completes (.unitFault (.tabor k)) s (fun t => (t.core k).faulty = true ∧
      (∃ w, t.inv v.id = some w ∧ w.ended = some .watchdog ∧ w.status = .hangRestart) ∧
      (∀ c : ClusterId, (t.cluster c).scratch = (s.cluster c).scratch) ∧
      t = { s with cores := t.cores, clusters := t.clusters, invs := t.invs, ctrs := t.ctrs, events := t.events, handed := t.handed })) ∧
  (∀ (s : State) (c : ClusterId), Completes (.unitFault (.streamUnit c)) s (fun t => (t.cluster c).faulty = true ∧
    (t.cluster c).streamQ = [] ∧ t.basalt = s.basalt ∧ t.engines = s.engines)) ∧
  (∀ (s : State) (e : EngineId), Completes (.unitFault (.engine e)) s (fun t => t.engine e = ⟨[], true⟩ ∧ t.basalt = s.basalt)) ∧
  (∀ (s : State) (n : Nat) (d : Desc), s.desc n = some d → d.opcode = 0x11 → Completes (.unitFault (.memGet n)) s (fun t =>
    t.desc n = none ∧ answered s t d.part d.hdr 0x11 .timeout [] ∧
    flowOnly { s with ctrs := t.ctrs, events := t.events } t)) ∧
  (∀ (s : State) (k : SliceId), (s.sliceOf k).retired = false → Completes (.adderGroupFault k none) s (fun t =>
    (∃ g < 64, (t.sliceOf k).faulty = ((s.sliceOf k).faulty ++ [g]).eraseDups ∧
      ((∃ i < 64, i ∉ (s.sliceOf k).faulty) → g ∉ (s.sliceOf k).faulty) ∧ (t.sliceOf k).waitParts =
        (s.sliceOf k).waitParts.filter (fun w => w.1 != g) ++ (s.weighted k).map (fun p => (g, p))) ∧
    (t.sliceOf k).closed = ((s.sliceOf k).closed || (t.sliceOf k).faulty.any (fun g => !(t.sliceOf k).waitParts.any (fun w => w.1 == g))) ∧
    t = { s with slices := t.slices, handed := t.handed, freeCtr := s.freeCtr + 1 })) ∧
  (∀ (s : State) (k : SliceId) (p : PartId) (g n c : Nat) (pl : Peal), s.peal p g n = some pl → (chunkOf pl c).result = none →
    Completes (.adderGroupFault k (some (p, g, n, c))) s (fun t => ∃ q, t.peal p g n = some q ∧ (chunkOf q c).lost = true)) ∧
  (∀ (s : State) (k : SliceId), (s.sliceOf k).closed = true → (∀ g ∈ s.groups, g.defn.slice = k.val → g.peals = []) →
    let due := (s.sliceOf k).faulty.filter (fun g => !(s.sliceOf k).waitParts.any (fun w => w.1 == g))
    ((∀ g ∈ due, g ∉ (s.sliceOf k).spareUsed) → Completes (.sliceSubstitute k) s (fun t =>
      t.sliceOf k = { s.sliceOf k with
        closed := false, faulty := (s.sliceOf k).faulty.filter (fun g => !due.contains g),
        spareUsed := (s.sliceOf k).spareUsed ++ due, early := [] } ∧
      t.boot = { s.boot with spares := s.boot.spares.set (8 * k.val + 2) (s.sparesLeft k 2 - due.length) } ∧
      ∀ i ∈ (s.sliceOf k).early, (none, i) ∈ t.handed)) ∧
    ((∃ g ∈ due, g ∈ (s.sliceOf k).spareUsed) → Completes (.sliceSubstitute k) s (fun t =>
      t.sliceOf k = { s.sliceOf k with closed := false, faulty := [], waitParts := [], retired := true, early := [] } ∧
      t.boot = s.boot ∧ ∀ i ∈ (s.sliceOf k).early, (none, i) ∈ t.handed))) ∧
  ∀ (s : State) (k : SliceId), (s.sliceOf k).closed = false ∨ (∃ g ∈ s.groups, g.defn.slice = k.val ∧ g.peals ≠ []) →
    exec (.sliceSubstitute k) s = .next s

/-! ### Switch core (R248 to R277) -/

/-- An item for one output: admitted with a buffer of its partition's share, charged to its queue; dropped and counted where its pair is
no longer mapped, or where it comes from a local port and does not fit; written when the claims leave room; queued when its last octet
is written; and sent by a free output from the highest class with an eligible head, when the link credit suffices, which then is busy for
the item's occupancy. A buffer whose last holder lets go waits to be pushed onto its pool's stack, and one let go of once too often is
quarantined, counted and logged; the share bounds that where it had been pushed already (R251, R255, R256, R258 to R260, R264, R265, R268,
R273; the last by log entry 11). -/
def Obligations.ItemsPass : Prop :=
  (∀ (s : State) (i : Item) (o v k : Nat), s.item i.id = some i → i.stage = .offered → i.outs = [(o, v)] → o < 64 →
    s.entryMapped i (o, v) = true → s.outUp o = true → s.sw.items.any (fun j => j.stage == .wantsBuffer && sameQueue i j) = false →
    (∃ a b c d, i.load = .frame a b c d) → s.placeItem i = some k → (∀ j ∈ s.sw.items, j.writer = i.writer → j = i) →
    Completes (.itemAdmission i.id) s (fun t =>
      (∃ ptr j, t.item i.id = some j ∧ j.stage = .wantsOutput ∧ j.buf = some (dieOf o, k, ptr) ∧
        ⟨dieOf o, k, ptr, i.part, 1, 0, [], false⟩ ∈ t.sw.bufs) ∧ t.allocated i.part (dieOf o) k = s.allocated i.part (dieOf o) k + 1 ∧
      (t.outPort o).waiting = (s.outPort o).waiting ++ [i.id] ∧
      (t.queueOf o i.cls i.part).octets = (s.queueOf o i.cls i.part).octets + (s.pool (dieOf o) k).bufSize ∧
      t = { s with sw := t.sw, handed := t.handed })) ∧
  (∀ (s : State) (i : Item) (o v : Nat), s.item i.id = some i → i.stage = .offered → i.outs = [(o, v)] → i.buf = none →
    i.lineBuf = none → s.entryMapped i (o, v) = false →
    Completes (.itemAdmission i.id) s (fun t => t.item i.id = none ∧ t.ctrs = (s.bump (.outPort i.part o 1)).ctrs ∧
      t = { s with sw := t.sw, handed := t.handed, ports := t.ports, ctrs := t.ctrs, events := t.events })) ∧
  (∀ (s : State) (i : Item) (o v : Nat), s.item i.id = some i → i.stage = .offered → i.outs = [(o, v)] →
    s.entryMapped i (o, v) = true → s.outUp o = true → isLocalIn i.writer = true → i.buf = none → i.lineBuf = none →
    (∃ a b c d, i.load = .frame a b c d) →
    s.placeItem i = none → (∀ x ∈ s.nodeOps, x.part ≠ i.part ∨ x.origin ≠ i.origin) → Completes (.itemAdmission i.id) s (fun t =>
      t.item i.id = none ∧ t.ctrs = (s.bump (.outPort i.part o 0)).ctrs ∧
      t = { s with sw := t.sw, handed := t.handed, ports := t.ports, ctrs := t.ctrs, events := t.events })) ∧
  (∀ (s : State) (o : Fin 80) (i : Item) (v : Nat) (r : List Nat), (s.outPort o).waiting = i.id :: r → s.item i.id = some i →
    i.outs = [(o.val, v)] →
    (s.claims o + claimOf i.writer ≤ claimLimit o → Completes (.writerAdmit o) s (fun t => (t.outPort o).waiting = r ∧
      (t.outPort o).writing = (s.outPort o).writing ++ [i.id] ∧ (∃ j, t.item i.id = some j ∧ j.stage = .writing) ∧
      (none, Instr.itemWriteDone i.id) ∈ t.handed ∧ t = { s with sw := t.sw, handed := t.handed, ctrs := t.ctrs })) ∧
    (claimLimit o < s.claims o + claimOf i.writer → exec (.writerAdmit o) s = .next s)) ∧
  (∀ (s : State) (i : Item) (o v : Nat) (b : Nat × Nat × Nat) (x : Buf), s.item i.id = some i → i.stage = .writing →
    i.outs = [(o, v)] → o < 64 → i.buf = some b → s.buf b = some x → i.lineBuf = none → Completes (.itemWriteDone i.id) s (fun t =>
      (∃ j, t.item i.id = some j ∧ j.stage = .queued ∧ j.rx = none) ∧ i.id ∉ (t.outPort o).writing ∧
      (t.queueOf o i.cls i.part).entries = (s.queueOf o i.cls i.part).entries ++ [i.id] ∧
      t.buf b = some { x with fill := i.len, data := loadOctets i.load } ∧
      t = { s with sw := t.sw, handed := t.handed, ports := t.ports })) ∧
  (∀ (s : State) (d : DieId) (k ptr : Nat) (x : Buf), s.buf (d, k, ptr) = some x → k < 4 → s.sw.pools.length = 24 →
    (1 < x.refs → Completes (.refcountDecrement d k ptr) s (fun t => t.buf (d, k, ptr) = some { x with refs := x.refs - 1 } ∧
      t = { s with sw := { s.sw with bufs := t.sw.bufs } })) ∧
    (x.refs = 1 → Completes (.refcountDecrement d k ptr) s (fun t => t.buf (d, k, ptr) = some { x with refs := 0 } ∧
      t.sw.pushes = s.sw.pushes ++ [(d.val, k, ptr)] ∧ t = { s with sw := { s.sw with bufs := t.sw.bufs, pushes := t.sw.pushes } })) ∧
    (x.refs = 0 → Completes (.refcountDecrement d k ptr) s (fun t => t.buf (d, k, ptr) = none ∧
      t.pool d k = { s.pool d k with quarantined := (s.pool d k).quarantined ++ [(ptr, x.part)] } ∧
      t.ctrs = (s.bump (.bufQuarantined d k)).ctrs ∧ t = { s with sw := t.sw, ctrs := t.ctrs, events := t.events, flash := t.flash })) ∧
    ((x.refs = 0 → x.bad = false → (s.pushBuf (d, k, ptr)).buf (d, k, ptr) = none ∧
      ((s.pushBuf (d, k, ptr)).pool d k).freed = (ptr, x.part) :: (s.pool d k).freed))) ∧
  (∀ (s : State) (d : DieId) (k ptr p : Nat), s.buf (d, k, ptr) = none → (s.pool d k).freed.find? (fun f => f.1 == ptr) = some (ptr, p) →
    k < 4 → s.sw.pools.length = 24 → Completes (.refcountDecrement d k ptr) s (fun t => t.ctrs = (s.bump (.bufQuarantined d k)).ctrs ∧
      (if 0 < s.freeShare p d k then (t.pool d k).quarantined = (s.pool d k).quarantined ++ [(ptr, p)] ∧ ∀ f ∈ (t.pool d k).freed, f.1 ≠ ptr
       else t.sw = s.sw) ∧ t = { s with sw := t.sw, ctrs := t.ctrs, events := t.events, flash := t.flash })) ∧
  ∀ (s : State) (n : LocalPort) (c d : Nat) (i : Item), (s.port n).linkUp = true → s.outFree n = true →
    s.chooseLocal n = some (c, i, d) →
    (∀ e, c < e → e < 8 → ∀ p ∈ s.queuedParts n e, s.eligible n e p = false) ∧
    (s.credit n < unitsOf i.len → exec (.outputSelect n) s = .next s) ∧
    (unitsOf i.len ≤ s.credit n → i.buf.isSome = true → Completes (.outputSelect n) s (fun t =>
      t.out = s.out ++ [.frame n (s.frameFor n (((i.outs.find? (fun x => x.1 == n.val)).map Prod.snd).getD 0) i)] ∧
      (t.port n).consumed = ((s.port n).consumed + unitsOf i.len) % 2 ^ 32 ∧ i.id ∉ (t.queueOf n i.cls i.part).entries ∧
      (t.outPort n).busy = max (s.outPort n).busy (s.cycle * 10000) + State.localOccupancy i.len ∧
      t = { s with
        sw := t.sw, handed := t.handed, out := t.out, ports := t.ports, ctrs := t.ctrs, events := t.events, snare := t.snare,
        flash := t.flash }))

/-! ### Line ports (R278 to R299, R309 to R313, R332, R342) -/

/-- A frame slot of a line port out of service carries nothing; one with nothing to send carries idle fill; a late segment goes in the next
slot; a record due with nothing to ride on goes as an ACK segment. A seal done in time leaves with its frame and is counted then, one that
is late waits while its slot carries idle fill, and a withdrawn one never leaves. A serial frame of a management channel brings the groups
of the next multiframe (R265, R271, R292, R309, R313, R327, R332, R348). What waits for which seal
follows log entry 21. -/
def Obligations.LineFramesLeave : Prop :=
  (∀ (s : State) (m : LinePort), s.lineUp m = false → exec (.lineFrameSlot m) s = .next s) ∧
  (∀ (s : State) (m : LinePort), lineFree s m → (s.line m).late = [] → lineQuiet s m → s.dueOn m = [] →
    Completes (.lineFrameSlot m) s (fun t => lineSent s t m none ∧ lineOnly s t)) ∧
  (∀ (s : State) (m : LinePort) (b : SegBuild), lineFree s m → (s.line m).late = [b] → s.mayUse m b.part = true →
    Completes (.lineFrameSlot m) s (fun t => lineSent s t m (some b.octets) ∧ (t.line m).late = [] ∧
      lineOnly { s with ctxs := t.ctxs } t)) ∧
  (∀ (s : State) (m : LinePort) (c : Ctx), lineFree s m → (s.line m).late = [] → lineQuiet s m → s.dueOn m = [c] →
    Completes (.lineFrameSlot m) s (fun t => (∃ b, (t.line m).sealing = some b ∧ b.ctx = none ∧ b.part = c.part) ∧ t.out = s.out ∧
      (∀ x, t.ctx c.key = some x → x.recordDue = none) ∧ lineOnly { s with ctxs := t.ctxs } t)) ∧
  (∀ (s : State) (m : LinePort) (late : Bool), (s.line m).sealing = none → exec (.sealDone m late) s = .next s) ∧
  (∀ (s : State) (n : Fin 4) (txd : Octets), Completes (.mchSerialFrame n txd) s (fun t =>
    (∃ x, t.out = s.out ++ [.mch n x] ∧ x.length = 40) ∧ ∀ m : LinePort, m.val / 4 = n.val → s.lineUp m = true →
      (t.line m).tx.nextA = fitTo 4 0 (slice (10 * (m.val % 4) + 1) 4 txd) ∧
      (t.line m).tx.nextB = fitTo 4 0 (slice (10 * (m.val % 4) + 6) 4 txd))) ∧
  ∀ (s : State) (m : LinePort) (late : Bool) (b : SegBuild), (s.line m).sealing = some b → Completes (.sealDone m late) s (fun t =>
    lineSent s t m (if b.withdrawn || late then none else some b.octets) ∧ (t.line m).sealing = none ∧
    (t.line m).late = (s.line m).late ++ (if late && !b.withdrawn then [b] else []) ∧ lineOnly s t ∧
    t.ctr (.line b.part m 0) = if b.withdrawn || late || (s.part b.part).state == .free then s.ctr (.line b.part m 0)
      else (s.ctr (.line b.part m 0) + 1) % 2 ^ 64)

/-- A received basic frame, made of the eight lanes: out of frame the receiver takes the lane offsets of a full set of FAS words and is in frame
when they stand so
again; five errored FAS in a row lose it; a frame with an uncorrectable codeword hands nothing on; a segment whose body opens is handed to
its stream. The defects dLOS, dLOF and dLOM are declared and cleared, and a second of monitoring ends (R283 to R287, R298, R308). -/
def Obligations.LineFramesArrive : Prop :=
  (∀ (s : State) (m : LinePort) (r : LineRx), s.lineUp m = false → exec (.lineFrameRx m r) s = .next s) ∧
  (∀ (s : State) (m : LinePort), s.lineUp m = true →
    Completes (.dlosDeclare m) s (fun t => (t.line m).rx.dlos = true) ∧ Completes (.dlosClear m) s (fun t => (t.line m).rx.dlos = false) ∧
    ((s.line m).rx.inFrame = false → Completes (.dlofDeclare m) s (fun t => (t.line m).rx.dlof = true)) ∧
    ((s.line m).rx.inFrame = true → Completes (.dlofClear m) s (fun t => (t.line m).rx.dlof = false)) ∧
    ((s.line m).rx.inMulti = false → (s.line m).rx.dlof = false → Completes (.dlomDeclare m) s (fun t => (t.line m).rx.dlom = true)) ∧
    ((s.line m).rx.inMulti = true → Completes (.dlomClear m) s (fun t => (t.line m).rx.dlom = false))) ∧
  (∀ s : State, Completes .pmSecond s (fun t => ∀ m : LinePort, (t.line m).pm.lastPeak = (s.line m).pm.cur.peak ∧
    (t.line m).pm.cur.near = 0)) ∧
  (∀ (s : State) (m : LinePort) (r : LineRx), s.lineUp m = true → (s.line m).rx.inFrame = false →
    Completes (.lineFrameRx m r) s (fun t => t = { s with lines := t.lines, ctrs := t.ctrs, events := t.events } ∧
      (t.line m).pm.cur.near = (s.line m).pm.cur.near + 1 ∧
      ((t.line m).rx.inFrame = true ↔ ∃ offs, laneOffsets r.lanes = some offs ∧ (s.line m).rx.candidate = some offs) ∧
      ((t.line m).rx.inFrame = false → (t.line m).rx.candidate = laneOffsets r.lanes))) ∧
  (∀ (s : State) (m : LinePort) (r : LineRx), s.lineUp m = true → (s.line m).rx.inFrame = true → (s.line m).rx.badFas = 4 →
    (lanesFrame (s.line m).rx.order r.lanes).take 5 ≠ fasOctets → Completes (.lineFrameRx m r) s (fun t => (t.line m).rx.inFrame = false ∧
      (t.line m).rx.inMulti = false ∧ t = { s with lines := t.lines, ctrs := t.ctrs, events := t.events })) ∧
  ∀ (s : State) (m : LinePort) (r : LineRx), s.lineUp m = true → (s.line m).rx.inFrame = true →
    (lanesFrame (s.line m).rx.order r.lanes).take 5 = fasOctets → Completes (.lineFrameRx m r) s (fun t =>
      let d := decodeFrame (scrambleFrame (lanesFrame (s.line m).rx.order r.lanes))
      let x := slice 65 9710 d.info
      (t.line m).rx.inFrame = true ∧ (t.line m).rx.badFas = 0 ∧
      lineOnly s t ∧ t.out = s.out ∧
      (d.bad ≠ 0 → t.handed = s.handed) ∧
      ∀ (p : Nat) (key plain : Octets), d.bad = 0 → (overheadOf d.info).pt = 1 →
        ((s.conf.lineOf m).map LineRec.traceStops).getD false = false → segmentOk x = true → octetAt 1 x = 1 → beAt 16 2 x = 0 →
        (s.conf.lineOf m).map LineRec.keySlot ≠ some (segHdr x).keySlot →
        s.streamPart (segHdr x).stream = some p → s.openKey p (segHdr x) = some key →
        gcmOpen key (slice 20 12 x) (x.take 32) (slice 32 (beAt 18 2 x) x) (slice (32 + beAt 18 2 x) 16 x) = some plain →
        (none, Instr.dataSegmentRx m { segHdr x with arrived := some (s.stamp (64 + m.val) true) } plain) ∈ t.handed)

/-- The defects of a line port are declared and cleared with an event each, and dLOS takes the receiver out of frame; a second of monitoring
is shown and the one nine before it counted; the serial management channels exchange a group for each channel; a port takes a new line
key with the next activation index and a random nonce, and none while Quartz is UNSET (R285, R286, R292, R293, R295 to R299, R329, R342,
R366). Seconds and defects follow log entry 23. -/
def Obligations.LinesSupervised : Prop :=
  (∀ (s : State) (m : LinePort), s.lineUp m = true → (s.line m).rx.dlos = false → Completes (.dlosDeclare m) s (fun t =>
    (t.line m).rx.dlos = true ∧ (t.line m).rx.inFrame = false ∧ (t.line m).rx.inMulti = false ∧
    t = { s with lines := t.lines, events := t.events, ctrs := t.ctrs })) ∧
  (∀ (s : State) (m : LinePort), s.lineUp m = true →
    ((s.line m).rx.dlos = true → Completes (.dlosClear m) s (fun t => (t.line m).rx = { (s.line m).rx with dlos := false } ∧
      t.events = (s.lineEvent m 1 false).events ∧ t = { s with lines := t.lines, events := t.events })) ∧
    ((s.line m).rx.inFrame = false → (s.line m).rx.dlof = false → Completes (.dlofDeclare m) s (fun t =>
      (t.line m).rx = { (s.line m).rx with dlof := true } ∧ t.events = (s.lineEvent m 2 true).events ∧
      t = { s with lines := t.lines, events := t.events })) ∧
    ((s.line m).rx.inFrame = true → (s.line m).rx.dlof = true → Completes (.dlofClear m) s (fun t =>
      (t.line m).rx = { (s.line m).rx with dlof := false } ∧ t.events = (s.lineEvent m 2 false).events ∧
      t = { s with lines := t.lines, events := t.events })) ∧
    ((s.line m).rx.inMulti = false → (s.line m).rx.dlof = false → (s.line m).rx.dlom = false → Completes (.dlomDeclare m) s (fun t =>
      (t.line m).rx = { (s.line m).rx with dlom := true } ∧ t.events = (s.lineEvent m 3 true).events ∧
      t = { s with lines := t.lines, events := t.events })) ∧
    ((s.line m).rx.inMulti = true → (s.line m).rx.dlom = true → Completes (.dlomClear m) s (fun t =>
      (t.line m).rx = { (s.line m).rx with dlom := false } ∧ t.events = (s.lineEvent m 3 false).events ∧
      t = { s with lines := t.lines, events := t.events }))) ∧
  (∀ (s : State), Completes .pmSecond s (fun t => t = { s with lines := t.lines, events := t.events } ∧ ∀ m : LinePort,
    (t.line m).pm = pmStep (s.quartz.secs - 1) (s.lineUp m && ((s.line m).rx.dlos || (s.line m).rx.dlof || (s.line m).rx.dlom)) (!s.lineUp m)
      (s.line m).pm)) ∧
  (∀ (s : State) (n k : Fin 4) (txd : Octets), Completes (.mchSerialFrame n txd) s (fun t => t = { s with lines := t.lines, out := t.out } ∧
    ∃ x, t.out = s.out ++ [.mch n x] ∧ x.length = 40 ∧ ∀ m : LinePort, m.val = 4 * n.val + k.val → if s.lineUp m then
      let r := (s.line m).rx
      slice (10 * k.val) 5 x = BitVec.ofNat 8 ((if r.chanA.isEmpty then 0 else 128) + (if r.dlos || r.dlof || r.dlom then 64 else 0) +
        (if r.slipA then 32 else 0)) :: fitTo 4 0 (r.chanA.headD []) ∧
      (t.line m).rx = { r with chanA := r.chanA.drop 1, slipA := false, chanB := r.chanB.drop 1, slipB := false } ∧
      (t.line m).tx = { (s.line m).tx with
        nextA := fitTo 4 0 (slice (10 * k.val + 1) 4 txd), nextB := fitTo 4 0 (slice (10 * k.val + 6) 4 txd) }
    else t.line m = s.line m ∧ slice (10 * k.val) 10 x = zeros 10)) ∧
  (∀ (s u : State) (m : LinePort) (r : LineRec) (k : KeySlot) (c : Octets × Octets × Nat) (v : Octets), s.lineUp m = true →
    s.conf.lineOf m = some r → s.keySlot r.keySlot = some k → State.currentKey k = some c → s.quartz.set = true → r.transmitted ≠ r.expected →
    s.drbg 4 = some (v, u) → Completes (.lineKeyActivation m) s (fun t =>
      let a := max (s.boot.retention.aLast + 1) (s.quartz.secs % 2 ^ 32) % 2 ^ 32
      (t.line m).tx.key = some ⟨a, beNat v, (deriveLine c.1 a (beNat v) r.transmitted).1, (deriveLine c.1 a (beNat v) r.transmitted).2⟩ ∧
      (t.line m).tx.used = 0 ∧ (t.line m).tx.limit = c.2.2 ∧ t.boot.retention.aLast = a ∧
      t = { s with keys := t.keys, boot := t.boot, lines := t.lines, freeCtr := t.freeCtr })) ∧
  ∀ (s : State) (m : LinePort), (s.lineUp m = false → exec (.lineKeyActivation m) s = .next s) ∧
    (s.lineUp m = true → s.quartz.set = false → Completes (.lineKeyActivation m) s (fun t => (t.line m).tx.key = none ∧
      t = { s with lines := t.lines }))

/-! ### Streams on the line (R302, R308, R311 to R323) -/

/-- What a body that opens does to its stream: dropped and counted with no context; a duplicate answered with a record and counted; one past
the next held in a buffer; the next delivered, and a whole completion handed on. Records release what they cover; an OPEN of the time
window makes the context, one outside it or equal to a FAILED context's is counted; a RESET fails the stream (R302, R308, R312, R314, R319 to
R323). What the sections
leave open on receipt follows log entry 22. -/
def Obligations.SegmentsArrive : Prop :=
  (∀ (s : State) (m : LinePort) (h : SegHdr) (x : Octets) (b : ControlBody) (p : Nat), bodyNamed s h p → s.bodyCtx m h = none →
    exec (.dataSegmentRx m h x) s = .next (s.bump (.line p m 4)) ∧ exec (.streamResetRx m h b) s = .next (s.bump (.line p m 4))) ∧
  (∀ (s : State) (m : LinePort) (h : SegHdr) (x : Octets) (p : Nat) (c : Ctx), bodyNamed s h p → s.bodyCtx m h = some c →
    earlier 32 h.seq c.cumulative = true ∨ (∃ y ∈ c.stored, y.seq = h.seq) → Completes (.dataSegmentRx m h x) s (fun t =>
      (∃ y, t.ctx c.key = some y ∧ y.cumulative = c.cumulative ∧ y.stored = c.stored ∧ y.recordDue.isSome = true) ∧
      t.ctrs = (s.bump (.line c.part m 2)).ctrs ∧
      t = { s with ctxs := t.ctxs, caches := t.caches, ctrs := t.ctrs, events := t.events })) ∧
  (∀ (s : State) (m : LinePort) (h : SegHdr) (x : Octets) (p : Nat) (c : Ctx), bodyNamed s h p → s.bodyCtx m h = some c →
    later 32 h.seq c.cumulative = true → serialDiff 32 h.seq c.cumulative < c.advertised → (∀ y ∈ c.stored, y.seq ≠ h.seq) →
    0 < s.freeShare c.part (4 + lineDie m) 0 → 0 < (s.pool (4 + lineDie m) 0).free → Completes (.dataSegmentRx m h x) s (fun t =>
      let b := (4 + lineDie m, 0, (s.allocBuf c.part (4 + lineDie m) 0 1).1)
      (∃ y, t.ctx c.key = some y ∧ y.cumulative = c.cumulative ∧ y.stored = c.stored ++ [⟨h.seq, x, true, some b⟩]) ∧
      ((∀ z ∈ s.sw.bufs, (z.die, z.pool, z.ptr) ≠ b) → t.buf b = some ⟨b.1, 0, b.2.2, c.part, 1, x.length, x, false⟩) ∧
      t.allocated c.part (4 + lineDie m) 0 = s.allocated c.part (4 + lineDie m) 0 + 1 ∧
      t = { s with ctxs := t.ctxs, caches := t.caches, sw := t.sw })) ∧
  (∀ (s : State) (m : LinePort) (h : SegHdr) (x : Octets) (p k : Nat) (c : Ctx), bodyNamed s h p → s.bodyCtx m h = some c →
    h.reverse = true → h.seq = c.cumulative → c.stored = [] → c.item = none → c.waitBuffer = none → goodCompletion x →
    s.fitPool c.part (4 + lineDie m) x.length = some k →
    let b := (4 + lineDie m, k, (s.allocBuf c.part (4 + lineDie m) k 1).1)
    (∀ z ∈ s.sw.bufs, (z.die, z.pool, z.ptr) ≠ b) → Completes (.dataSegmentRx m h (wholePiece 3 x)) s (fun t =>
      (∃ y, t.ctx c.key = some y ∧ y.cumulative = (c.cumulative + 1) % 2 ^ 32 ∧ y.item = none) ∧
      t.sw.pushes = s.sw.pushes ++ [b] ∧
      (none, Instr.streamCompletionRx (fin64 c.part) (compHdr x) (yuvBody x)) ∈ t.handed ∧
      t = { s with ctxs := t.ctxs, caches := t.caches, sw := t.sw, handed := t.handed })) ∧
  (∀ (s : State) (m : LinePort) (r : AckRec) (c : Ctx),
    let k := if r.reverse then accKey r.stream (s.siteOfLine m) else origKey r.stream
    let moves := later 32 r.cumulative c.sendBase
    s.ctx k = some c → c.state = .open → c.incarnation = r.incarnation → later 32 r.cumulative c.sendNext = false →
    Completes (.ackBlockRx m [r]) s (fun t =>
      (∃ y, t.ctx k = some y ∧ y.sendBase = (if moves then r.cumulative else c.sendBase) ∧ y.state = .open ∧
        (r.cumulative = y.sendBase → y.peerWindow = r.window) ∧
        ∀ h ∈ y.held, recordBit r h.seq = false ∧
          (moves = true → ¬serialDiff 32 h.seq c.sendBase < serialDiff 32 r.cumulative c.sendBase)) ∧
      t = { s with ctxs := t.ctxs, caches := t.caches, lines := t.lines, sw := t.sw, handed := t.handed, ctrs := t.ctrs,
                   events := t.events, flash := t.flash })) ∧
  (∀ (s : State) (m : LinePort) (h : SegHdr) (b : ControlBody) (p : Nat), bodyNamed s h p → s.quartz.set = true →
    s.now ≤ b.secs * nsPerSec + b.ns + 10 * nsPerSec → b.secs * nsPerSec + b.ns ≤ s.now + nsPerSec →
    s.ctx (accKey h.stream (s.siteOfLine m)) = none →
    s.ctxs.countP (fun c => c.key.accepted && c.part == p) < ((s.conf.partOf p).map PartRec.streamCount).getD 0 →
    Completes (.streamOpenRx m h b) s (fun t => (∃ y, t.ctx (accKey h.stream (s.siteOfLine m)) = some y ∧ y.part = p ∧ y.state = .open ∧
        y.site = s.siteOfLine m ∧ y.incarnation = h.incarnation ∧ y.cls = b.cls.val ∧ y.openTime = b.secs * nsPerSec + b.ns ∧
        y.cumulative = 1) ∧ t = { s with ctxs := t.ctxs, caches := t.caches })) ∧
  (∀ (s : State) (m : LinePort) (h : SegHdr) (b : ControlBody) (p : Nat), bodyNamed s h p →
    s.ctx (accKey h.stream (s.siteOfLine m)) = none →
    s.quartz.set = false ∨ b.secs * nsPerSec + b.ns + 10 * nsPerSec < s.now ∨ s.now + nsPerSec < b.secs * nsPerSec + b.ns →
    exec (.streamOpenRx m h b) s = .next (s.bumpPart p 5)) ∧
  (∀ (s : State) (m : LinePort) (h : SegHdr) (b : ControlBody) (p : Nat) (c : Ctx), bodyNamed s h p →
    s.ctx (accKey h.stream (s.siteOfLine m)) = some c → c.incarnation = h.incarnation → c.openTime = b.secs * nsPerSec + b.ns →
    c.state ≠ .open → exec (.streamOpenRx m h b) s = .next (s.bump (.line p m 2))) ∧
  ∀ (s : State) (m : LinePort) (h : SegHdr) (b : ControlBody) (p : Nat) (c : Ctx), bodyNamed s h p → s.bodyCtx m h = some c →
    Completes (.streamResetRx m h b) s (fun t => streamFailed s t c.key b.status)

/-- Operations from the line: a read of a device-local space that a window with R and I covers is answered on the stream with its octets, one
that no such window covers with SEGMENT_FAULT, on the line port that the flow hash picks and in the class of the stream; one behind an
operation of its stream that waits is held; a completion ends the operation with its tag, an unknown tag is counted (R46, R48, R125,
R253, R301, R321). -/
def Obligations.RemoteOperationsRun : Prop :=
  (∀ (s : State) (p : PartId) (site : Nat) (x : Octets) (c : Ctx) (h : DescHdr) (m : MemOp),
    let stream := beAt 8 4 x % 1048576
    s.resuming = none → numbersGiven s → s.ctx (accKey stream site) = some c → c.part = p.val → c.state = .open → octetAt 0 x = 1 → octetAt 1 x = 1 →
    octetAt 2 x = 0x11 → (∀ r ∈ s.remoteOps, r.ctx = accKey stream site → s.remoteWaits r = false) →
    parseDescriptor
      { port := 0, vlan := 0, cls := Fin.ofNat 8 c.cls, src := 0, wantCompletion := false, fence := false,
        tag := BitVec.ofNat 32 (beAt 4 4 x), stream := stream, units := 0 } x = some (.memGet h m) →
    m.space ≠ .global → (s.part p).state = .active → s.memHeld p m false = false → matrixWrites s m = false →
    Completes (.remoteOperationRx p site x) s (fun t => (∃ i ∈ t.sw.items, s.sw.nextItem ≤ i.id ∧ i.part = p.val ∧
        i.cls = c.cls ∧ i.outs = [(64 + (pickFlow p.val stream (s.lineCands p.val c.site)).getD c.line, 0)] ∧
          i.load = .stream 3 stream site (if s.access p m.space m.cluster m.addr m.length Rights.read.inbound
          then yuvBytes 2 0x11 0 (beAt 4 4 x) stream (s.readLocal m.space m.cluster m.addr m.length)
          else yuvBytes 2 0x11 8 (beAt 4 4 x) stream [])) ∧
      t.remoteOps = s.remoteOps ∧
      t = { s with sw := t.sw, handed := t.handed, nextRemote := s.nextRemote + 1, ctxs := t.ctxs })) ∧
  (∀ (s : State) (p : PartId) (site : Nat) (x : Octets) (c : Ctx) (h : DescHdr) (m : MemOp) (r : RemoteOp),
    let stream := beAt 8 4 x % 1048576
    s.resuming = none → numbersGiven s → s.ctx (accKey stream site) = some c → c.part = p.val → octetAt 0 x = 1 → octetAt 1 x = 1 →
    parseDescriptor
      { port := 0, vlan := 0, cls := Fin.ofNat 8 c.cls, src := 0, wantCompletion := false, fence := false,
        tag := BitVec.ofNat 32 (beAt 4 4 x), stream := stream, units := 0 } x = some (.memGet h m) →
    m.space ≠ .global → (s.part p).state = .active → r ∈ s.remoteOps → r.ctx = c.key → s.remoteWaits r = true →
    Completes (.remoteOperationRx p site x) s (fun t => t.remoteOps = s.remoteOps ++
        [{ freshRemote s.nextRemote c x none with held := some (.remoteOperationRx p site x) }] ∧
      t = { s with remoteOps := t.remoteOps, nextRemote := s.nextRemote + 1 })) ∧
  (∀ (s : State) (p : PartId) (c : CompHdr) (x : Octets) (y : Ctx) (o : StreamReq) (n : Nat) (d : Desc),
    s.ctxs.find? (fun x => x.part == p.val && !x.key.accepted && x.ops.any (fun o => o.tag == c.tag)) = some y →
    y.ops.find? (fun o => o.tag == c.tag) = some o → o.origin = .desc n → s.desc n = some d → d.opcode = 0x11 → c.status = .ok →
    x.length = o.bodyLen → Completes (.streamCompletionRx p c x) s (fun t => t.desc n = none ∧
      answered s t d.part d.hdr 0x11 .ok x ∧ (∀ z, t.ctx y.key = some z → ∀ q ∈ z.ops, q.tag ≠ c.tag) ∧
      flowOnly { s with ctxs := t.ctxs } t)) ∧
  ∀ (s : State) (p : PartId) (c : CompHdr) (x : Octets),
    s.ctxs.find? (fun x => x.part == p.val && !x.key.accepted && x.ops.any (fun o => o.tag == c.tag)) = none →
    exec (.streamCompletionRx p c x) s = .next (s.bumpPart p 6)

/-- The timers of a stream: a record becomes due; the base segment is sent again, and after 16 retransmissions or at its age the stream
fails; delivery goes on when an item gets its buffer, with no record made due by it; a FAILED accepted context with nothing left is free, and one
whose items are not
all answered stays (R312, R317, R318, R321, R322). -/
def Obligations.StreamTimers : Prop :=
  (∀ (s : State) (k : CtxKey) (c : Ctx), s.ctx k = some c → c.state = .open → c.firstArrival.isSome = true →
    Completes (.ackDelayExpiry k) s (fun t => t.ctx k = some { c with recordDue := some (c.recordDue.getD s.now) } ∧
      t = { s with ctxs := t.ctxs })) ∧
  (∀ (s : State) (k : CtxKey) (c : Ctx), s.ctx k = some c → c.state ≠ .open ∨ c.firstArrival = none →
    exec (.ackDelayExpiry k) s = .next s) ∧
  (∀ (s : State) (k : CtxKey) (c : Ctx) (h : HeldSeg) (ps : List Piece), s.ctx k = some c →
    c.held.find? (fun h => h.seq == c.sendBase) = some h → h.firstSent.isSome = true → h.retries < 16 → h.queued = false →
    h.body = .data ps → c.line < 16 → Completes (.retxTimer k) s (fun t =>
      (∃ y, t.ctx k = some y ∧ y.held = mapWhen (fun z => z.seq == c.sendBase) (fun z => { z with queued := true }) c.held) ∧
      (t.line c.line).retx = (s.line c.line).retx ++ [(k, c.sendBase)] ∧ t = { s with ctxs := t.ctxs, lines := t.lines })) ∧
  (∀ (s : State) (k : CtxKey) (c : Ctx) (h : HeldSeg), s.ctx k = some c → c.state = .open →
    c.held.find? (fun h => h.seq == c.sendBase) = some h → h.firstSent.isSome = true → 16 ≤ h.retries →
    Completes (.retxTimer k) s (fun t => streamFailed s t k .streamFailed)) ∧
  (∀ (s : State) (k : CtxKey) (c : Ctx), s.ctx k = some c → c.state = .open → (∃ h ∈ c.held, h.firstSent.isSome = true) →
    Completes (.streamAgeFail k) s (fun t => streamFailed s t k .streamFailed)) ∧
  (∀ (s : State) (k : CtxKey) (c : Ctx) (x : Octets) (b : Option (Nat × Nat × Nat)) (n : Nat), s.ctx k = some c → c.state = .open →
    k.accepted = false → c.waitBuffer = some 0 → c.item = none → c.stored = [⟨c.cumulative, wholePiece 3 x, false, b⟩] →
    goodCompletion x → s.fitPool c.part (4 + lineDie c.rxLine) x.length = some n → Completes (.reassemblyBufferGrant k) s (fun t =>
      (∃ y, t.ctx k = some y ∧ y.cumulative = (c.cumulative + 1) % 2 ^ 32 ∧ y.stored = [] ∧ y.waitBuffer = none ∧
        y.recordDue = c.recordDue) ∧ (none, Instr.streamCompletionRx (fin64 c.part) (compHdr x) (yuvBody x)) ∈ t.handed ∧
      t = { s with ctxs := t.ctxs, sw := t.sw, handed := t.handed, ctrs := t.ctrs, events := t.events, flash := t.flash })) ∧
  (∀ (s : State) (k : CtxKey) (c : Ctx) (st : Status), s.ctx k = some c → c.state = .failed st → k.accepted = true → c.unanswered = 0 →
    ctxBufs c = [] → Completes (.acceptedContextFree k) s (fun t => t.ctx k = none ∧
      t = { s with ctxs := s.ctxs.filter (fun x => x.key != k), caches := t.caches })) ∧
  ∀ (s : State) (k : CtxKey) (c : Ctx), s.ctx k = some c → c.state = .open ∨ c.unanswered ≠ 0 → exec (.acceptedContextFree k) s = .next s

/-! ### Keys and random numbers (R337 to R357) -/

/-- A line die gets its next block of invocations, at most 2^20 of those left, and a slot with no key left is EXHAUSTED; a failing sample
stops all random output until a retest passes, and the third failing retest latches the source; a reseed takes the samples; a line port whose new
activation cannot be has no key and sends no tag; a key is wrapped anew for a record of the owner alone (R337, R339, R340, R342 to R346,
R352 to R355, R366). What a retest leaves open follows log entry
25. -/
def Obligations.KeysServed : Prop :=
  (∀ (s : State) (d : Fin 2) (n a : Nat) (k : KeySlot), s.keySlot n = some k → k.usage = 1 → k.state = .active → k.activation = some a →
    0 < State.leftOf k → Completes (.keyGrantRequest d n) s (fun t =>
      t.keys.blocks = s.keys.blocks ++
        [⟨d.val, n, k.generation, k.pos, k.granted, k.granted + min (State.leftOf k) (2 ^ 20), a⟩] ∧
      t.keySlot n = some { k with granted := k.granted + min (State.leftOf k) (2 ^ 20) } ∧ t = { s with keys := t.keys })) ∧
  (∀ (s : State) (d : Fin 2) (n : Nat) (k : KeySlot), s.keySlot n = some k → k.usage = 1 → k.state = .active →
    k.activation.isSome = true → State.leftOf k = 0 → k.staged = none → k.mag.keys[k.pos + 1]? = none →
    Completes (.keyGrantRequest d n) s (fun t => (∃ y, t.keySlot n = some y ∧ y.state = .exhausted) ∧
      ∀ c ∈ t.ctxs, s.slotFor c.part c.key.stream = some n → ∀ x, t.ctx c.key = some x → x.part = c.part → x.state ≠ .open)) ∧
  (∀ (s : State) (apt : Bool), s.keys.ent = .healthy → Completes (.entropyTestFail apt) s (fun t =>
    t.keys = { s.keys with ent := .failed, retestFails := 0 } ∧ (∀ n, t.drbg n = none) ∧
    t.ctrs = (s.bump (if apt then .entApt else .entRct)).ctrs ∧
    t = { s with keys := t.keys, quartz := t.quartz, ctrs := t.ctrs, events := t.events, flash := t.flash })) ∧
  (∀ (s : State) (x : List Bool), s.keys.ent = .failed → x.length = 4096 → healthOk x = true →
    Completes (.entropyRetest x) s (fun t => t.keys.ent = .healthy ∧ t.keys.retestFails = 0 ∧ t.basalt = s.basalt)) ∧
  (∀ (s : State) (x : List Bool), s.keys.ent = .failed → x.length = 4096 → healthOk x = false → Completes (.entropyRetest x) s (fun t =>
    t.keys = { s.keys with ent := if s.keys.retestFails < 2 then .failed else .latched, retestFails := s.keys.retestFails + 1 } ∧
    ∀ p : PartId, (s.part p).state = .starting → (t.part p).state = if s.keys.retestFails < 2 then .starting else .halted)) ∧
  (∀ (s : State) (x : List Bool), s.keys.ent ≠ .failed ∨ x.length ≠ 4096 → exec (.entropyRetest x) s = .next s) ∧
  (∀ (s : State) (x : List Bool) (d : DrbgState), s.keys.ent = .healthy → healthOk x = true → s.keys.drbg = some d →
    Completes (.drbgReseed x) s (fun t => t.keys = { s.keys with drbg := some (drbgReseed (packSamples x) d) } ∧
      t = { s with keys := t.keys, quartz := t.quartz, power := t.power })) ∧
  (∀ (s : State) (x : List Bool), s.keys.ent = .healthy → healthOk x = false → Completes (.drbgReseed x) s (fun t =>
    t.keys = { s.keys with ent := .failed, retestFails := 0 } ∧
    t = { s with keys := t.keys, quartz := t.quartz, power := t.power, ctrs := t.ctrs, events := t.events, flash := t.flash })) ∧
  (∀ (s : State) (m : LinePort) (r : LineRec), s.lineUp m = true → s.conf.lineOf m = some r →
    s.quartz.set = false ∨ r.transmitted = r.expected ∨ s.keySlot r.keySlot = none ∨ s.drbg 4 = none →
    Completes (.lineKeyActivation m) s (fun t => (t.line m).tx.key = none ∧ (t.line m).tx.otag = [] ∧ t = { s with lines := t.lines })) ∧
  (∀ (s : State) (x : Octets), keyWrapForm x = false → Completes (.keyWrap x) s (fun t =>
    mailed s t .badDescriptor (keyWrapReply s.fixed .badDescriptor (zeros 40)) ∧ mailOnly s t)) ∧
  (∀ (s : State) (x : Octets), keyWrapForm x = true → s.namesUs x = false ∨ s.ownerSigned (x.take 164) (slice 164 96 x) = false →
    Completes (.keyWrap x) s (fun t => mailed s t .notPermitted (keyWrapReply s.fixed .notPermitted (zeros 40)) ∧ mailOnly s t)) ∧
  ∀ (s u : State) (x k1 kk z k : Octets), keyWrapForm x = true → s.namesUs x = true → s.ownerSigned (x.take 164) (slice 164 96 x) = true →
    s.derivedKey 1 = some k1 → s.kek = some (kk, u) → ecdhX (scalarOfKey k1) (p384Decode (slice 16 97 x)) = some z →
    kwUnwrap (importKey s.fixed z) (slice 116 40 x) = some k → Completes (.keyWrap x) s (fun t =>
      mailed s t .ok (keyWrapReply s.fixed .ok (kwWrap kk k)) ∧ mailOnly { s with keys := t.keys } t)

/-! ### Quartz (R358 to R375) -/

/-- Quartz is set by a record that answers its challenge, at once or at the next PPS edge, and is slewed where it is set already; an attempt
uses the challenge up; the servo follows accepted edges and holds over without them; PPS_OUT rises only while it is on and Quartz is SET
(R363 to R370, R375). The arithmetic of the servo follows log entry 27. -/
def Obligations.QuartzKeepsTime : Prop :=
  (∀ (s u : State) (c : Octets), s.drbg 16 = some (c, u) → Completes .timeChallenge s (fun t =>
    let e := secNs (s.now + 600 * nsPerSec)
    t.quartz = { s.quartz.arm 3 (some e) with timeChallenge := some (c, e) } ∧
    mailed s t .ok (replyBytes 0x0D12 .ok c) ∧ mailOnly { s with quartz := t.quartz, keys := u.keys, freeCtr := u.freeCtr } t)) ∧
  (∀ (s : State), s.drbg 16 = none → Completes .timeChallenge s (fun t =>
    mailed s t .entropyFail (replyBytes 0x0D12 .entropyFail []) ∧ mailOnly s t)) ∧
  (∀ (s : State), Completes .timeChallengeExpiry s (fun t => t.quartz = { s.quartz.arm 3 none with timeChallenge := none } ∧
    t = { s with quartz := t.quartz, power := t.power })) ∧
  (∀ (s : State) (x : Octets), timeSetForm x = false → Completes (.timeSet x) s (fun t => rejected s t 0x0D0A .badDescriptor)) ∧
  (∀ (s : State) (x : Octets), timeSetForm x = true → s.timeSetAllowed x = false →
    Completes (.timeSet x) s (fun t => rejected s.useTimeChallenge t 0x0D0A .notPermitted)) ∧
  (∀ (s : State) (x : Octets), timeSetForm x = true → s.timeSetAllowed x = true → s.quartz.set = true →
    Completes (.timeSet x) s (fun t => t.quartz.timeChallenge = none ∧ t.quartz.secs = s.quartz.secs ∧ t.quartz.ns = s.quartz.ns ∧
      t.quartz.slew = (((beAt 32 8 x * nsPerSec + beAt 40 4 x : Nat) : Int) - (s.now : Int)) * 2 ^ 28 - (s.quartz.frac : Int) ∧
      mailed s t .ok (replyBytes 0x0D0A .ok []) ∧ mailOnly { s with quartz := t.quartz } t)) ∧
  (∀ (s : State) (x : Octets), timeSetForm x = true → s.timeSetAllowed x = true → s.quartz.set = false → Completes (.timeSet x) s (fun t =>
    t.quartz.timeChallenge = none ∧
    if bitOf (octetAt 28 x) 0 then t.quartz.pendingSet = some (beAt 32 8 x, beAt 40 4 x) ∧ t = { s with quartz := t.quartz }
    else t.quartz.secs = beAt 32 8 x % 2 ^ 48 ∧ t.quartz.ns = beAt 40 4 x ∧ t.quartz.frac = 0 ∧ t.quartz.set = true ∧
      mailed s t .ok (replyBytes 0x0D0A .ok []) ∧ t.basalt = s.basalt ∧ t.parts = s.parts)) ∧
  (∀ (s : State), (s.quartz.pendingSet = none → exec .timeSetPpsTimeout s = .next s) ∧
    (s.quartz.pendingSet.isSome = true → Completes .timeSetPpsTimeout s (fun t => t.quartz = { s.quartz with pendingSet := none } ∧
      mailed s t .timeout (replyBytes 0x0D0A .timeout []) ∧ mailOnly { s with quartz := t.quartz, events := t.events } t))) ∧
  (∀ (s : State), Completes .slewComplete s (fun t => t = { s with quartz :=
    { s.quartz with slew := 0, addend := addendOf (corrOf s.quartz.integral s.quartz.prop 0) } })) ∧
  (∀ (s : State) (low half : Nat), s.ppsIn = false ∨ low < 100 → exec (.ppsInEdge ⟨low, half⟩) s = .next s) ∧
  (∀ (s : State) (low half : Nat), s.ppsIn = true → s.edgeAccepted (s.edgeTime half) low = true → s.quartz.set = true →
    Completes (.ppsInEdge ⟨low, half⟩) s (fun t =>
      let h := phaseHalf (s.edgeTime half)
      t.quartz.tracking = true ∧ t.quartz.lastEdge = some (s.edgeTime half) ∧ t.quartz.secs = s.quartz.secs ∧ t.quartz.ns = s.quartz.ns ∧
      (h.natAbs < 20000 → t.quartz.integral = s.quartz.integral - h.fdiv 128 ∧ t.quartz.prop = -(h.fdiv 16)) ∧
      (20000 ≤ h.natAbs → t.quartz.integral = s.quartz.integral ∧ t.quartz.prop = if h > 0 then -200000 else 200000) ∧
      t.quartz.addend = addendOf t.quartz.corr ∧ t.ctrs = (s.bump .ppsEdges).ctrs ∧ t = { s with quartz := t.quartz, ctrs := t.ctrs })) ∧
  (∀ (s : State) (low half secs ns : Nat), s.ppsIn = true → s.edgeAccepted (s.edgeTime half) low = true → s.quartz.set = false →
    s.quartz.pendingSet = some (secs, ns) → Completes (.ppsInEdge ⟨low, half⟩) s (fun t =>
      let x := shiftTime secs ns (2 * ((s.conf.time.map TimeRec.cableDelay).getD 0) - half)
      t.quartz.set = true ∧ t.quartz.pendingSet = none ∧
      t.quartz.secs = x / (2 * nsPerSec) % 2 ^ 48 ∧ t.quartz.ns = x % (2 * nsPerSec) / 2 ∧ t.quartz.frac = x % 2 * 2 ^ 27 ∧
        mailed s t .ok (replyBytes 0x0D0A .ok []))) ∧
  (∀ (s : State), (s.quartz.tracking = false → exec .ppsHoldoverTimeout s = .next s) ∧
    (s.quartz.tracking = true → Completes .ppsHoldoverTimeout s (fun t => t.quartz.tracking = false ∧ t.quartz.prop = 0 ∧
      t.quartz.integral = s.quartz.integral ∧ t.quartz.addend = addendOf t.quartz.corr ∧ t.ctrs = (s.bump .ppsHoldover).ctrs ∧
      t = { s with quartz := t.quartz, ctrs := t.ctrs, events := t.events }))) ∧
  ∀ (s : State) (rise : Bool), Completes (.ppsOutEdge rise) s (fun t => t.quartz.ppsOut = (rise && s.ppsOutOn) ∧
    t.quartz.secs = s.quartz.secs ∧ t.quartz.ns = s.quartz.ns ∧ t = { s with quartz := t.quartz, power := t.power })

/-! ### Owner, debug, JTAG (R67 to R73) -/

/-- A binding signed by its own key fuses slot 0 of a device with blank slots and restarts it; a transfer signed by both owners fuses slot
1; a device whose slot 0 is void takes a binding into a blank slot 1 alone, and one whose slot 1 is void, slot 0 used or void, takes
none; any other owner bind record is rejected and fuses nothing; a debug token that passes destroys every key and ends every operation in
flight with KEY_ERASED, then frees every partition, and only then unlocks; one of the right form that does not pass uses the challenge up;
JTAG shifts its registers (R67 to R73). The cells of the boundary scan are
the model's (log entry 34), and so are the form of the restart and the moment of the scrub (log entry 30). -/
def Obligations.OwnersAndDebug : Prop :=
  (∀ (s : State) (x : Octets) (st : Status), s.bindCase x = .error st → Completes (.ownerBind x) s (fun t => rejected s t 0x0D02 st)) ∧
  (∀ (s : State) (x : Octets), ownerBindForm x = true → octetAt 12 x = 0 → zerosAt 212 96 x = true → s.namesUs x = true →
    s.owner = [.blank, .blank] → ecdsaVerify (slice 16 97 x) (x.take 116) (slice 116 96 x) = true → Completes (.ownerBind x) s (fun t =>
      t.owner = [.valid (BitVec.ofNat 384 (beNat (sha384 (slice 16 97 x)))), .blank] ∧ t.boot.kind = .warm ∧ t.boot.trigger = 3 ∧
      t.keys = keysAfterReset s.keys ∧ t.quartz.secs = s.quartz.secs)) ∧
  (∀ (s : State) (x : Octets) (h : BitVec 384), ownerBindForm x = true → octetAt 12 x = 1 → s.namesUs x = true →
    s.owner = [.valid h, .blank] → ecdsaVerify (slice 16 97 x) (x.take 116) (slice 116 96 x) = true →
    (s.ownerSigned (x.take 212) (slice 212 96 x) = true → Completes (.ownerBind x) s (fun t =>
      t.owner = [.valid h, .valid (BitVec.ofNat 384 (beNat (sha384 (slice 16 97 x))))] ∧ t.boot.kind = .warm ∧ t.keys = keysAfterReset s.keys ∧
      t.basalt = [])) ∧
    (s.ownerSigned (x.take 212) (slice 212 96 x) = false → Completes (.ownerBind x) s (fun t => rejected s t 0x0D02 .notPermitted))) ∧
  (∀ (s : State) (x : Octets), s.owner = [.void, .blank] → s.activeOwner = none ∧
    if ownerBindForm x = true ∧ octetAt 12 x = 1 ∧ zerosAt 212 96 x = true ∧ s.namesUs x = true ∧
        ecdsaVerify (slice 16 97 x) (x.take 116) (slice 116 96 x) = true
    then Completes (.ownerBind x) s (fun t => t.owner = [.void, .valid (BitVec.ofNat 384 (beNat (sha384 (slice 16 97 x))))] ∧
      t.boot.kind = .warm ∧ t.keys = keysAfterReset s.keys)
    else ∃ st, st ≠ .ok ∧ Completes (.ownerBind x) s (fun t => rejected s t 0x0D02 st)) ∧
  (∀ (s : State) (x : Octets) (a : OwnerSlot), s.owner = [a, .void] → a ≠ .blank → (a = .void → s.activeOwner = none) ∧
    ∃ st, st ≠ .ok ∧ Completes (.ownerBind x) s (fun t => rejected s t 0x0D02 st)) ∧
  (∀ (s u : State) (c : Octets), s.drbg 16 = some (c, u) → Completes .debugChallenge s (fun t =>
    t.quartz = { s.quartz with debugChallenge := some (c, s.quartz.secs + 600, s.quartz.ns) } ∧
    mailed s t .ok (replyBytes 0x0D12 .ok c) ∧ mailOnly { s with quartz := t.quartz, keys := u.keys, freeCtr := u.freeCtr } t)) ∧
  (∀ (s : State) (x : Octets), debugForm x = false → Completes (.debugUnlock x) s (fun t => rejected s t 0x0D01 .badDescriptor)) ∧
  (∀ (s : State) (x : Octets), debugForm x = true → s.tokenAllowed x = false → Completes (.debugUnlock x) s (fun t =>
    t.debugScope = s.debugScope ∧ rejected { s with quartz := { s.quartz with debugChallenge := none } } t 0x0D01 .notPermitted)) ∧
  (∀ (s : State) (x : Octets), debugForm x = true → s.tokenAllowed x = true → Completes (.debugUnlock x) s (fun t =>
    t.debugPending = some (octetAt 28 x) ∧ t.debugScope = s.debugScope ∧ t.quartz.debugChallenge = none ∧ t.keys.derived = [] ∧
    t.keys.drbg = none ∧ t.owner = s.owner ∧ (∀ n k, t.keySlot n = some k → k.state = .empty) ∧ t.descs = [] ∧
    (s.ctxs = [] → s.groups = [] → s.keys.bulk = [] → ∀ n d, s.desc n = some d → d.opcode ≠ 0x32 →
      answered s t d.part d.hdr d.opcode .keyErased []))) ∧
  (∀ (s : State) (scope : Nat), s.debugPending = some scope →
    s.debugEnds.debugScope = scope ∧ s.debugEnds.debugPending = none ∧ s.debugEnds.owner = s.owner ∧
    (∀ p : PartId, (s.debugEnds.part p).state = .free) ∧ mailed s s.debugEnds .ok (replyBytes 0x0D01 .ok [])) ∧
  (∀ (s : State) (b : Bool), exec (.jtagBypass b) s =
    .next { s with out := s.out ++ [.tdo [s.jtag.bypass]], jtag := { s.jtag with ir := 0, bypass := b, driven := none } }) ∧
  (∀ s : State, exec .jtagIdcode s = .next { s with
    out := s.out ++ [.tdo ((List.range 32).map Config.jtagIdcode.getLsbD)], jtag := { s.jtag with ir := 1, driven := none } }) ∧
  (∀ (s : State) (a b : List Bool), exec (.jtagSamplePreload a b) s = .next { s with
    out := s.out ++ [.tdo (a.take Config.boundaryCells)],
    jtag := { s.jtag with ir := 2, boundary := b.take Config.boundaryCells, driven := none } }) ∧
  ∀ s : State, exec .jtagExtest s = .next { s with jtag := { s.jtag with ir := 3, driven := some s.jtag.boundary } }

/-! ### Slate updates and the critical log (R76, R97 to R108) -/

/-- An image update: the target, never the committed slot, is erased; octets are programmed in order and nothing else of the device changes;
a slot that reads back good is committed under a new sequence, any other never; the second device receives a copy; a record that does
not fit is rejected; a critical event is written at the head of the log (R97, R98, R102 to R108). The order of what an update writes
follows log entry 28. -/
def Obligations.ImagesUpdated : Prop :=
  (∀ (s : State) (x : Octets) (h : SlateHeader) (d : Nat) (l : List Nat), s.flash.update = none →
    checkHeader s.activeOwner s.fixed.uid.toNat x = .ok h → s.workingDevs = d :: l → (s.flashDev d).rest = none →
    Completes (.imageBegin x) s (fun t => (∃ u, t.flash.update = some u ∧ u.stage = .erasing ∧ u.background = false ∧
        u.length = h.length ∧ u.next = 0 ∧ u.dev = d ∧ (t.flashDev d).erasing = true ∧ u.slot = targetSlot (s.flashDev d).cells ∧
        (∀ c, highestCommit (s.flashDev d).cells = some c → u.slot ≠ c.slot) ∧
        ∀ a, memByte 0xFF (t.flashDev d).cells a = if u.slot * slotSize ≤ a ∧ a < (u.slot + 1) * slotSize then 0xFF
          else memByte 0xFF (s.flashDev d).cells a) ∧
      t = { s with flash := t.flash, mail := t.mail, handed := t.handed, events := t.events })) ∧
  (∀ (s : State) (x : Octets) (e : CheckFail), s.flash.update = none → checkHeader s.activeOwner s.fixed.uid.toNat x = .error e →
    Completes (.imageBegin x) s (fun t => mailOnly s t ∧
      mailed s t (if e.step = 2 then .badDescriptor else .notPermitted) (replyBytes 0x0D05 (if e.step = 2 then
        .badDescriptor else .notPermitted) []))) ∧
  (∀ (s : State) (u : Update), s.flash.update = some u → u.stage = .erasing → Completes .slotEraseDone s (fun t =>
    t.flash.update = some { u with stage := .receiving } ∧
    (∀ d : Fin 2, (t.flashDev d).erasing = false ∧ (t.flashDev d).cells = (s.flashDev d).cells) ∧
    t = { s with flash := t.flash, mail := t.mail, tocsin := t.tocsin, out := t.out, handed := t.handed })) ∧
  (∀ (s : State) (u : Update) (x : Octets), s.flash.update = some u → u.stage = .receiving → u.background = false →
    u.next + x.length ≤ u.length → (s.flashDev u.dev).works = true → (s.flashDev u.dev).rest = none →
    Completes (.imageData u.next x) s (fun t =>
      (∃ v, t.flash.update = some { u with stage := .programming, via := v, next := u.next + x.length }) ∧
      (∀ a, memByte 0xFF (t.flashDev u.dev).cells a =
        let b := u.slot * slotSize + u.next
        if b ≤ a ∧ a < b + x.length then x.getD (a - b) 0xFF else memByte 0xFF (s.flashDev u.dev).cells a) ∧
      t = { s with flash := t.flash, mail := t.mail, handed := t.handed })) ∧
  (∀ (s : State) (n : Nat) (x : Octets), s.flash.update = none → Completes (.imageData n x) s (fun t => rejected s t 0x0D06 .notPermitted)) ∧
  (∀ (s : State) (u : Update) (n : Nat) (x : Octets), s.flash.update = some u → u.stage = .receiving → u.background = false →
    n ≠ u.next ∨ u.length < n + x.length → Completes (.imageData n x) s (fun t => rejected s t 0x0D06 .badDescriptor)) ∧
  (∀ (s : State) (u : Update), s.flash.update = some u → u.stage = .receiving → u.background = false →
    (s.readBackFails (s.updateImage u) u = none → Completes .imageEnd s (fun t => ∃ v, t.flash.update = some
      { u with stage := .commit0, via := v, seq := s.highestSeq + 1, digest := sha384 (s.updateImage u),
               c0Erased := sectorFull (s.flashDev u.dev).cells 0 })) ∧
    ((s.readBackFails (s.updateImage u) u).isSome = true → Completes .imageEnd s (fun t => t.flash.update = none ∧
      t.flash.devs = s.flash.devs ∧ mailed s t .notPermitted (replyBytes 0x0D07 .notPermitted [])))) ∧
  (∀ s : State, s.flash.update = none → exec .imageUpdateTimeout s = .next s) ∧
  (∀ (s : State) (u : Update), s.flash.update = some u → u.stage = .receiving → Completes .imageUpdateTimeout s (fun t =>
    t.flash.update = none ∧ t.flash.devs = s.flash.devs)) ∧
  (∀ (s : State) (d : Fin 2), (s.flashDev d).rest = none → exec (.flashProgramDone d) s = .next s) ∧
  (∀ (s : State) (d : Fin 2) (u : Update) (a : Nat) (x : Octets), (s.flashDev d).rest = some (a, x) → s.flash.update = some u →
    u.dev = d.val → a < logBase → u.second = none → u.stage = .programming ∨ u.stage = .commit1 →
    Completes (.flashProgramDone d) s (fun t => (t.flashDev d).rest = none ∧
      t.flash.update = (if u.stage = .programming then some { u with stage := .receiving } else none) ∧
      (∀ i, i < x.length → memByte 0xFF (t.flashDev d).cells (a + i) = x.getD i 0xFF) ∧
      ∀ b, b < a ∨ a + x.length ≤ b → memByte 0xFF (t.flashDev d).cells b = memByte 0xFF (s.flashDev d).cells b)) ∧
  (∀ (s : State) (d : Fin 2) (u : Update) (a : Nat) (x : Octets), (s.flashDev d).rest = some (a, x) → s.flash.update = some u →
    u.dev = d.val → a < logBase → u.stage = .commit0 → u.c0Erased = false →
    Completes (.flashProgramDone d) s (fun t => t.flash.update = some { u with stage := .commit1 } ∧
      t = { s with flash := t.flash, handed := t.handed })) ∧
  (∀ (s : State) (u : Update) (e slot : Nat), s.flash.update = some u → u.stage = .copying → u.second = some (e, slot) → slot < 2 →
    u.dev ≠ e → (s.flashDev e).works = true →
    Completes (.secondDeviceCopyDone true) s (fun t => t.flash.update = none ∧ t.flashDev u.dev = s.flashDev u.dev ∧
      (∀ i, i < slotSize → memByte 0xFF (t.flashDev e).cells (slot * slotSize + i) =
        memByte 0xFF (s.flashDev u.dev).cells (u.slot * slotSize + i)) ∧ t = { s with flash := t.flash }) ∧
    Completes (.secondDeviceCopyDone false) s (fun t => t.flash.update = none ∧ (t.flashDev e).cells = (s.flashDev e).cells ∧
      t = { s with flash := t.flash, events := t.events })) ∧
  (∀ (s : State) (b : Candidate), s.boot.image = some b → s.boot.phase = .ready → (s.flashDev (1 - b.dev)).works = true →
    s.flash.update = none → (∀ c, highestCommit (s.flashDev (1 - b.dev)).cells = some c → c.seq < b.seq ∨ c.digest ≠ b.digest) →
    Completes .backgroundCopy s (fun t => (∃ u, t.flash.update = some u ∧ u.stage = .copying ∧ u.background = true ∧ u.dev = b.dev ∧
      u.slot = b.slot ∧ u.seq = b.seq ∧ u.second = some (1 - b.dev, targetSlot (s.flashDev (1 - b.dev)).cells)) ∧
      t = { s with flash := t.flash })) ∧
  ∀ (s : State) (d : Fin 2) (w : LogWait), s.flash.waiting = [w] → w.devs = [d.val] → (s.flashDev d).works = true →
    (s.flashDev d).logBusy = false → Completes .criticalLogWrite s (fun t =>
      let a := logBase + 1024 * (s.flashDev d).logPos
      let x := logEntryBytes (s.flashDev d).logSeq w
      t.flash.waiting = [] ∧ (∀ i, i < 1020 → memByte 0xFF (t.flashDev d).cells (a + i) = x.getD i 0xFF) ∧
      (t.flashDev d).rest = some (a + 1020, x.drop 1020) ∧ (t.flashDev d).logSeq = ((s.flashDev d).logSeq + 1) % 2 ^ 32 ∧
      (t.flashDev d).logPos = ((s.flashDev d).logPos + 1) % 4096 ∧ t = { s with flash := t.flash })

/-! ### Partitions (R43 to R62, R109 to R112, R389) -/

/-- Reloads and releases: one that breaks a test is rejected, with OVERFLOW in its event where it is a group's headroom, and every one of a
partition that is STARTING, RELOADING or SCRUBBING; one of
a FREE partition is applied at once, of an ACTIVE one left for its step boundary, a release of a HALTED one scrubs it; bring-up ends
ACTIVE or HALTED; a reload ends ACTIVE with the memory of removed windows zero; a scrub ends FREE with nothing of the partition left;
new windows wait for old accesses (R43, R50, R59, R60, R90, R111, R112, R389, R434). What the sections leave open of the lifecycle follows
log entry 24. -/
def Obligations.PartitionsChange : Prop :=
  (∀ (s : State) (x : Octets) (st : Status) (n : Conf), s.reloadStatus x = (some st, n) →
    (st ≠ .notPermitted ∨ s.reloadOverflows x n = false → Completes (.reload x) s (fun t => rejected s t 0x0D03 st)) ∧
    (st = .notPermitted → s.reloadOverflows x n = true → Completes (.reload x) s (fun t => mailed s t st (replyBytes 0x0D03 st []) ∧
      t.events = (s.raise 0x0302 none (State.oct (statusCode st) ++ leBytes 2 0x0D03 ++ State.overflowOctet true)).events ∧
      mailOnly { s with events := t.events } t))) ∧
  (∀ (s : State) (x : Octets) (n : Conf), s.reloadStatus x = (none, n) → (s.part (reloadPart x)).state = .free → s.awakeFor n = true →
    Completes (.reload x) s (fun t => (t.part (reloadPart x)).state = .starting ∧ t.conf = s.conf.merge (reloadPart x) n ∧
      (t.part (reloadPart x)).reloadNumber = beAt 24 4 x ∧ mailed s t .ok (replyBytes 0x0D03 .ok []))) ∧
  (∀ (s : State) (x : Octets) (n : Conf), s.reloadStatus x = (none, n) → (s.part (reloadPart x)).state = .active →
    Completes (.reload x) s (fun t => t.part (reloadPart x) = { s.part (reloadPart x) with
        reload := some ⟨false, n⟩, reloadNumber := beAt 24 4 x } ∧
      mailed s t .ok (replyBytes 0x0D03 .ok []) ∧ mailOnly { s with parts := t.parts } t)) ∧
  (∀ (s : State) (x : Octets) (st : Status), s.releaseStatus x = some st → Completes (.release x) s (fun t => rejected s t 0x0D04 st)) ∧
  (∀ (s : State) (x : Octets), s.releaseStatus x = none → (s.part (reloadPart x)).state = .active → Completes (.release x) s (fun t =>
    t.part (reloadPart x) = { s.part (reloadPart x) with reload := some ⟨true, .empty⟩, reloadNumber := beAt 24 4 x } ∧
    mailed s t .ok (replyBytes 0x0D04 .ok []) ∧ mailOnly { s with parts := t.parts } t)) ∧
  (∀ (s : State) (x : Octets), s.releaseStatus x = none → (s.part (reloadPart x)).state = .halted → Completes (.release x) s (fun t =>
    (t.part (reloadPart x)).state = .scrubbing ∧ (t.part (reloadPart x)).pairs = [] ∧ mailed s t .ok (replyBytes 0x0D04 .ok []))) ∧
  (∀ (s : State) (x : Octets), (s.part (reloadPart x)).state ∈ [PState.starting, .reloading, .scrubbing] →
    s.reloadOverflows x (s.reloadStatus x).2 = false → ∃ a b, a ≠ .ok ∧ b ≠ .ok ∧
    Completes (.reload x) s (fun t => rejected s t 0x0D03 a) ∧ Completes (.release x) s (fun t => rejected s t 0x0D04 b)) ∧
  (∀ (s u : State) (p : PartId), (s.part p).state = .starting → s.boot.phase = .ready → s.installSlots p = some u →
    Completes (.partitionBringupDone p) s (fun t => (t.part p).state = (if u.bringUpFails p then .halted else .active) ∧
      t.keys = u.keys ∧ t.basalt = s.basalt)) ∧
  (∀ (s : State) (p : PartId), (s.part p).state ≠ .starting ∨ s.boot.phase ≠ .ready ∨ s.installSlots p = none →
    exec (.partitionBringupDone p) s = .next s) ∧
  (∀ (s : State) (p : PartId) (old new : PartRec) (ws : List Window), (s.part p).state = .reloading → (s.part p).newWindows = none →
    (s.part p).scrubbing = [(old, ws)] → (s.part p).inStep = false → s.conf.partOf p = some new →
    noResources new { s.conf with windows := s.windows p, limits := s.conf.limits.filter (fun l => l.part == p.val) } = false →
    Completes (.reloadDone p) s (fun t => (t.part p).state = .active ∧ (t.part p).scrubbing = [] ∧
      (∀ c : ClusterId, old.hasCluster c = true → new.hasCluster c = false → (t.cluster c).scratch = []) ∧
      ∀ w ∈ ws, w.kind = 3 → ∀ a, w.base ≤ a → a < w.limit → (∀ v ∈ s.windows p, v.kind = 3 → a < v.base ∨ v.limit ≤ a) →
        memByte 0 t.basalt a = 0)) ∧
  (∀ (s : State) (p : PartId), (s.part p).state ≠ .reloading ∨ (s.part p).newWindows.isSome = true → exec (.reloadDone p) s = .next s) ∧
  (∀ (s : State) (p : PartId) (r : PartRec) (ws : List Window), (s.part p).state = .scrubbing → (s.part p).scrubbing = [(r, ws)] →
    Completes (.scrubDone p) s (fun t =>
      t.part p = { PartState.reset with state := .free, reloadNumber := (s.part p).reloadNumber } ∧
      (∀ c : ClusterId, r.hasCluster c = true → (t.cluster c).scratch = []) ∧
      (∀ w ∈ ws, w.kind = 3 → ∀ a, w.base ≤ a → a < w.limit → memByte 0 t.basalt a = 0) ∧
      (∀ n, r.hasSync n = true → t.syncValue n = 0) ∧ (∀ g ∈ t.groups, g.part ≠ p.val) ∧ (∀ c ∈ t.ctxs, c.part ≠ p.val) ∧
      (∀ c, State.ctrOwner c = some p.val → t.ctr c = 0) ∧
      t = { s with parts := t.parts, clusters := t.clusters, cores := t.cores, basalt := t.basalt, syncs := t.syncs, groups := t.groups,
                   ctxs := t.ctxs, caches := t.caches, events := t.events, ctrs := t.ctrs, flash := t.flash })) ∧
  (∀ (s : State) (p : PartId), (s.part p).state ≠ .scrubbing → exec (.scrubDone p) s = .next s) ∧
  (∀ (s : State) (p : PartId) (ws : List Window), (s.part p).newWindows = some ws → (∀ w ∈ ws, w.part = p.val) → s.accessesOpen p = false →
    Completes (.windowSwitch p) s (fun t => t.windows p = ws ∧ (t.part p).newWindows = none)) ∧
  ∀ (s : State) (p : PartId), (s.part p).newWindows = none ∨ s.accessesOpen p = true → exec (.windowSwitch p) s = .next s

/-! ### Mirrors (R398 to R411) -/

/-- The last copy of a commit written ends the boundary MIRRORED with the pages sent clean; a commit that takes 2 s leaves the mirror
LAGGING and the step goes on; probes are answered; an ADMIT names HELD_BACK partitions and restores or discards them; a restore goes
from its commit to its record, and its last page stages it; a page that is sealed counts as sent (R331, R336, R405, R406, R408 to R410).
What the sections leave open of mirrors follows log entry 26. -/
def Obligations.MirrorsKept : Prop :=
  (∀ (s : State) (p : PartId) (m : Mirror) (j : MirrorJob), s.mirrorOf p = some m → m.job = some j → j.stage = .copy1 → j.failed = false →
    j.left = [] → j.pages = [] → Completes (.mirrorCommit p) s (fun t => (t.part p).mirror = .mirrored ∧
      (t.part p).step = ((s.part p).step + 1) % 2 ^ 64 ∧ (t.part p).stepEnd = none ∧ ∃ n, t.mirrorOf p = some n ∧ n.job = none ∧
        n.dirty = m.dirty.filter (fun i => !(j.sent.contains i)) ∧ n.seq = (j.commit.map MirrorCommitRec.seq).getD m.seq + 1 ∧
        n.half = 1 - (j.commit.map MirrorCommitRec.half).getD m.half)) ∧
  (∀ (s : State) (p : PartId) (j : MirrorJob), (s.mirrorOf p).bind Mirror.job = some j → State.mirroring j.stage = true →
    Completes (.mirrorTimeout p) s (fun t => (t.part p).mirror = .lagging ∧ (t.mirrorOf p).bind Mirror.job = none ∧
      (t.part p).step = ((s.part p).step + 1) % 2 ^ 64 ∧ (t.part p).stepEnd = none)) ∧
  (∀ (s : State) (p : PartId), (s.mirrorOf p).bind Mirror.job = none → exec (.mirrorTimeout p) s = .next s) ∧
  (∀ (s : State) (p : PartId) (m : Mirror) (j : MirrorJob), s.mirrorOf p = some m → m.job = some j → j.stage = .probe → j.left = [] →
    ((s.part p).mirror = .lagging → Completes (.mirrorLagProbe p) s (fun t => t = { s with mirrors := t.mirrors } ∧
      t.mirrorOf p = some { m with job := none, probed := m.probed || !j.failed })) ∧
    ((s.part p).mirror = .heldBack →
      let d := State.jobData j
      if j.failed = true ∨ (countingCopy p (slice 0 128 d) (slice 128 128 d)).isSome = true then
        Completes (.heldBackProbe p) s (fun t => t = { s with mirrors := t.mirrors } ∧
          t.mirrorOf p = some { m with job := none, probed := !j.failed })
      else Completes (.heldBackProbe p) s (fun t => t = { s with mirrors := t.mirrors, parts := t.parts } ∧
        (t.part p).mirror = .mirrored ∧ t.mirrorOf p = some { m with job := none, probed := true, dirty := List.range (s.pageCount p) }))) ∧
  (∀ (s : State) (n : Nat), n = 0 ∨ (64 ≤ n ∧ n ≠ 0xFF) → Completes (.admitRestore n) s (fun t => rejected s t 0x0D0C .badDescriptor) ∧
    Completes (.admitDiscard n) s (fun t => rejected s t 0x0D0C .badDescriptor)) ∧
  (∀ (s : State) (p : PartId), 1 ≤ p.val → (s.part p).mirror ≠ .heldBack →
    Completes (.admitRestore p) s (fun t => rejected s t 0x0D0C .notPermitted) ∧
    Completes (.admitDiscard p) s (fun t => rejected s t 0x0D0C .notPermitted)) ∧
  (∀ (s : State) (p : PartId), 1 ≤ p.val → (s.part p).mirror = .heldBack →
    Completes (.admitRestore p) s (fun t => (t.part p).mirror = .restoring ∧ mailed s t .ok (replyBytes 0x0D0C .ok []) ∧
      t.basalt = s.basalt) ∧
    Completes (.admitDiscard p) s (fun t => (t.part p).mirror = .mirrored ∧ mailed s t .ok (replyBytes 0x0D0C .ok []) ∧
      (∀ m, t.mirrorOf p = some m → m.job = none ∧ m.dirty = List.range (s.pageCount p)) ∧
      ((∀ b ∈ s.keys.bulk, b.part ≠ p.val) → mailOnly { s with parts := t.parts, mirrors := t.mirrors } t))) ∧
  (∀ (s : State) (p : PartId) (m : Mirror) (j : MirrorJob) (c : MirrorCommitRec), s.mirrorOf p = some m → (s.part p).mirror = .restoring →
    m.job = some j → j.stage = .restoreCommit → j.failed = false → j.left = [] →
    let d := State.jobData j
    (countingCopy p (slice 0 128 d) (slice 128 128 d) = some c → 44 ≤ c.length → c.length ≤ 2 ^ 20 →
      Completes (.restoreDone p) s (fun t => (∃ k, (t.mirrorOf p).bind Mirror.job = some k ∧ k.stage = .restoreRecord ∧ k.commit = some c) ∧
        (t.part p).mirror = .restoring ∧ t.basalt = s.basalt)) ∧
    (countingCopy p (slice 0 128 d) (slice 128 128 d) = none → Completes (.restoreDone p) s (fun t => (t.part p).mirror = .heldBack))) ∧
  (∀ (s : State) (p : PartId) (m : Mirror), s.mirrorOf p = some m → (s.part p).mirror = .restoring → m.job = none → s.quartz.set = false →
    exec (.restoreDone p) s = .next s) ∧
  (∀ (s : State) (b : BulkJob) (m : Mirror) (j : MirrorJob),
    s.keys.bulk.find? (fun x => x.id == b.id && x.started) = some b → s.mirrorOf b.part = some m → m.job = some j → b.isSeal = true →
    b.purpose = 0 → b.aborted = false → b.key ≠ [] → Completes (.bulkMessageDone b.id) s (fun t =>
      (∃ n, (t.mirrorOf b.part).bind Mirror.job = some n ∧ n.sent = j.sent ++ [b.arg] ∧ b.arg ∉ n.pages) ∧
      (∀ x ∈ t.keys.bulk, x.id ≠ b.id) ∧ t.basalt = s.basalt)) ∧
  ∀ (s : State) (b : BulkJob) (m : Mirror) (j : MirrorJob) (r : RestoredState) (x : Octets),
    s.keys.bulk.find? (fun x => x.id == b.id && x.started) = some b → s.mirrorOf b.part = some m → m.job = some j → b.isSeal = false →
    b.purpose = 3 → b.aborted = false → b.key ≠ [] → j.pages = [b.arg] → j.record = some r →
    let w := State.pageRange (s.mirrored b.part) b.arg
    openEnvelope b.key b.salt b.envelope = some x → x.length = w.2 → noMatrixOpen s → b.part < 64 → Completes (.bulkMessageDone b.id) s (fun t =>
      (t.part b.part).mirror = .staged ∧ (∃ n, t.mirrorOf b.part = some n ∧ n.staged = some r ∧ n.job = none) ∧
      (∀ a, memByte 0 t.basalt a = if w.1 ≤ a ∧ a < w.1 + x.length then x.getD (a - w.1) 0 else memByte 0 s.basalt a) ∧
      t.clusters = s.clusters)

/-! ### Sessions and the management firmware (R414 to R421, R459, R461) -/

/-- A HELLO that passes forms a session of its own number and is answered with the CHALLENGE; a PROOF that verifies opens it and one that
does not leaves it forming; a sealed record of an open session under a new sequence waits for the mailbox, a replayed one is dropped;
sessions end by CLOSE, time and certificate; a firmware restart ends them all; heartbeats leave on linked ports (R414 to R421, R461).
The session number is a free value (log entry 3); the rest that is open follows log entry 31. -/
def Obligations.SessionsServed : Prop :=
  (∀ (s : State) (port : MgmtPort) (f : TocsinFrame), f.session ≠ 0 ∨ f.body.length ≠ 312 →
    exec (.hello port f) s = .next (s.dropTocsin port)) ∧
  (∀ (s u : State) (port : MgmtPort) (f : TocsinFrame) (id nonce : Octets) (q : Nat × Nat), f.session = 0 → f.body.length = 312 →
    s.fwServes = true → s.helloOk f.body = true → s.derivedKey 6 = some id → p384Decode (slice 212 97 f.body) = some q →
    let z := (ecdhX s.freeScalar.1 (some q)).getD []
    s.freeScalar.2.freeScalar.2.drbg 16 = some (nonce, u) → Completes (.hello port f) s (fun t =>
      (∃ x : Session, t.tocsin.sessions = s.tocsin.sessions ++ [x] ∧ x.isOpen = false ∧ x.hello = f.body ∧ x.rxSeq = 0 ∧ x.txSeq = 0 ∧
        x.opKeyPoint = slice 16 97 (f.body.take 212) ∧ x.notAfter = beAt 8 8 (f.body.take 212) ∧
        x.opKey = slice 0 32 (sessionKeys z nonce) ∧ x.devKey = slice 48 32 (sessionKeys z nonce) ∧
        (s.tocsin.sessions.length < 2 ^ 31 → x.id ≠ 0 ∧ s.session x.id = none) ∧
        (s.tocsin.links.getD port false = true → t.out = s.out ++ [.tocsin port (tocsinBytes 0x11 x.id 0 x.challenge)])) ∧
      t = { s with tocsin := t.tocsin, out := t.out, keys := u.keys, freeCtr := u.freeCtr, events := t.events })) ∧
  (∀ (s : State) (port : MgmtPort) (f : TocsinFrame), f.session = 0 → f.body.length = 312 → s.fwServes = false ∨ s.helloOk f.body = false →
    exec (.hello port f) s = .next s) ∧
  (∀ (s : State) (port : MgmtPort) (f : TocsinFrame), f.body.length ≠ 96 → exec (.proof port f) s = .next (s.dropTocsin port)) ∧
  (∀ (s : State) (port : MgmtPort) (f : TocsinFrame) (x : Session), f.body.length = 96 → s.session f.session = some x → x.isOpen = false →
    (ecdsaVerify x.opKeyPoint (x.hello ++ x.challenge) f.body = true → Completes (.proof port f) s (fun t =>
      t.session f.session = some { x with isOpen := true } ∧ (∀ n, n ≠ f.session → t.session n = s.session n) ∧
      t = { s with tocsin := { s.tocsin with sessions := t.tocsin.sessions } })) ∧
    (ecdsaVerify x.opKeyPoint (x.hello ++ x.challenge) f.body = false → exec (.proof port f) s = .next s)) ∧
  (∀ (s : State) (port : MgmtPort) (f : TocsinFrame), f.body.length = 96 → s.session f.session = none → exec (.proof port f) s = .next s) ∧
  (∀ (s : State) (n : Nat) (x : Session), s.session n = some x →
    (x.isOpen = false → Completes (.proofTimeout n) s (fun t => t.session n = none ∧ ∀ k, k ≠ n → t.session k = s.session k)) ∧
    (x.isOpen = true → exec (.proofTimeout n) s = .next s)) ∧
  (∀ (s : State) (port : MgmtPort) (f : TocsinFrame) (x : Session) (y : Octets), f.session ≠ 0 → s.session f.session = some x →
    x.isOpen = true → x.rxSeq < f.seq → 16 ≤ f.body.length → 8 ≤ y.length → y.length ≤ 16777216 →
    gcmOpen x.opKey (x.opSalt ++ beBytes 8 f.seq) (frameHead 0x20 f) (f.body.take (f.body.length - 16)) (f.body.drop (f.body.length - 16)) =
      some (carrierBytes y) → Completes (.record port f) s (fun t =>
      t.mail = { s.mail with queue := s.mail.queue ++ [⟨some (f.session, port.val), y⟩] } ∧
      t.session f.session = some { x with rxSeq := f.seq, assembling := none } ∧ (∀ n, n ≠ f.session → t.session n = s.session n) ∧
      (s.mail.current = none → (none, Instr.go) ∈ t.handed) ∧ t = { s with mail := t.mail, tocsin := t.tocsin, handed := t.handed })) ∧
  (∀ (s : State) (port : MgmtPort) (f : TocsinFrame) (x : Session), f.session ≠ 0 → s.session f.session = some x → x.isOpen = true →
    f.seq ≤ x.rxSeq → exec (.record port f) s = .next (s.dropTocsin port) ∧ exec (.close port f) s = .next (s.dropTocsin port)) ∧
  (∀ (s : State) (port : MgmtPort) (f : TocsinFrame), f.session ≠ 0 → s.session f.session = none →
    exec (.record port f) s = .next s ∧ exec (.close port f) s = .next s) ∧
  (∀ (s : State) (port : MgmtPort) (f : TocsinFrame) (y : Octets), f.session = 0 → f.body = carrierBytes y → y.length < 2 ^ 32 →
    (s.fwServes = true → s.activeOwner = none → Completes (.record port f) s (fun t =>
      t.mail = { s.mail with queue := s.mail.queue ++ [⟨some (0, port.val), y⟩] } ∧ t = { s with mail := t.mail, handed := t.handed })) ∧
    (s.fwServes = false ∨ s.activeOwner.isSome = true → exec (.record port f) s = .next s)) ∧
  (∀ (s : State) (port : MgmtPort) (x y : Octets), s.activeOwner = none → s.mail.current = some ⟨some (0, port.val), y⟩ →
    s.tocsin.links.getD port false = true →
    (∀ st, s.bindCase x = .error st → Completes (.ownerBind x) s (fun t =>
      .tocsin port (tocsinBytes 0x21 0 0 (carrierBytes (replyBytes 0x0D02 st []))) ∈ t.out)) ∧
    (s.bindCase x = .ok false → Completes (.ownerBind x) s (fun t =>
      .tocsin port (tocsinBytes 0x21 0 0 (carrierBytes (replyBytes 0x0D02 .ok []))) ∈ t.out))) ∧
  (∀ (s : State) (port : MgmtPort) (f : TocsinFrame) (x : Session) (y : Octets), s.session f.session = some x → x.isOpen = true →
    x.rxSeq < f.seq → 16 ≤ f.body.length →
    gcmOpen x.opKey (x.opSalt ++ beBytes 8 f.seq) (frameHead 0x22 f) (f.body.take (f.body.length - 16)) (f.body.drop (f.body.length - 16)) =
      some y → Completes (.close port f) s (fun t => t.session f.session = none ∧ ∀ n, n ≠ f.session → t.session n = s.session n)) ∧
  (∀ (s : State) (n : Nat), Completes (.sessionIdleTimeout n) s (fun t => t.session n = none ∧ ∀ k, k ≠ n → t.session k = s.session k)) ∧
  (∀ (s : State) (n : Nat), (s.quartz.set = true → Completes (.sessionCertExpiry n) s (fun t =>
      t.session n = none ∧ ∀ k, k ≠ n → t.session k = s.session k)) ∧
    (s.quartz.set = false → exec (.sessionCertExpiry n) s = .next s)) ∧
  (∀ (s : State) (port : MgmtPort) (x : Octets), beAt 12 2 x ≠ 0x88B6 ∨ 1514 < x.length ∨ tocsinHeadOk (x.drop 14) = false →
    exec (.tocsinFrameDrop port x) s = .next (s.dropTocsin port)) ∧
  (∀ (s : State) (port : MgmtPort) (x : Octets), beAt 12 2 x = 0x88B6 → x.length ≤ 1514 → tocsinHeadOk (x.drop 14) = true →
    octetAt 1 (x.drop 14) = 0x10 → exec (.tocsinFrameDrop port x) s = .next (s.hand (.hello port (tocsinFrameOf (x.drop 14))))) ∧
  (∀ (s : State) (port : MgmtPort) (up : Bool),
    exec (.mgmtLinkChange port up) s = .next { s with tocsin := { s.tocsin with links := s.tocsin.links.set port up } }) ∧
  (∀ s : State, s.fwServes = true → s.tocsin.beats.length = 2 → Completes .heartbeat s (fun t =>
    (∀ n < 2, s.tocsin.links.getD n false = true → t.tocsin.beats.getD n 0 = s.tocsin.beats.getD n 0 + 1 ∧
      .tocsin n (tocsinBytes 1 0 (s.tocsin.beats.getD n 0 + 1) (s.heartbeatBody n)) ∈ t.out) ∧
    (∀ n, s.tocsin.links.getD n false = false → t.tocsin.beats.getD n 0 = s.tocsin.beats.getD n 0) ∧
    t = { s with tocsin := { s.tocsin with beats := t.tocsin.beats }, out := t.out })) ∧
  (∀ s : State, s.fwServes = false → exec .heartbeat s = .next s) ∧
  (∀ (s : State) (v : Word32), exec (.watchdogWrite v) s = .next { s with
    boot := { s.boot with fwWatch := s.cycle, fwDown := false }, snare := [] }) ∧
  (∀ s : State, s.fwRuns = true → s.boot.bootrom = false → ∀ c ∈ [Instr.fwWatchdogExpiry, .fwLockstepFault], Completes c s (fun t =>
    t.tocsin.sessions = [] ∧ t.mail.queue = [] ∧ t.mail.current = none ∧ t.mail.buffer = s.mail.buffer ∧
    t.boot.fwRestarts = (s.boot.fwRestarts + 1) % 2 ^ 32 ∧ t.boot.fwDown = true ∧
    t.boot.bootrom = decide (3 ≤ (s.boot.fwTimes.filter (fun x => decide (s.quartz.secs < x + 600))).length) ∧
    (∀ u, t.flash.update = some u → u.background = true) ∧ t.basalt = s.basalt ∧ t.parts = s.parts ∧ t.keys = s.keys)) ∧
  ∀ s : State, s.fwRuns = false ∨ s.boot.bootrom = true → exec .fwWatchdogExpiry s = .next s ∧ exec .fwLockstepFault s = .next s

/-! ### The command mailbox and the event ring (R437, R438, R456, R458, R460) -/

/-- GO passes the oldest record received whole to its row and nothing else changes; one of no form, and one that an unbound device may not
take, is answered at once, a KEY_WRAP in its own form; READ answers the words of one block, WRITE takes READ_SEQ alone; firmware writes
LENGTH and the record buffer as registers; the records of an image update leave the mailbox at once and are answered when the flash is
ready, and what the flash does on its own leaves the mailbox as it is; the queue of events drains four entries a cycle into the ring, whose
oldest entry gives way (R67, R102 to R108, R346, R437, R438, R456, R458, R460). How a record reaches its row is the model's form (log entry
31). -/
def Obligations.MailboxServes : Prop :=
  (∀ s : State, s.mail.current.isSome = true → exec .go s = .next s) ∧
  (∀ (s : State) (r : MailIn) (q : List MailIn), s.mail.current = none → s.mail.queue = r :: q →
    (∀ c, State.recordCmd r.octets = some c → s.activeOwner.isSome = true ∨ beAt 0 2 r.octets = 0x0D02 → Completes .go s (fun t =>
      t.mail.queue = q ∧ t.mail.current = some r ∧ t.mail.length = r.octets.length ∧ t.mail.status = s.mail.status ∧
      t.mail.reply = s.mail.reply ∧
      (∀ a, memByte 0 t.mail.buffer a = if a < r.octets.length then r.octets.getD a 0 else memByte 0 s.mail.buffer a) ∧
      t = { s with mail := t.mail, handed := s.handed ++ [(none, c)] })) ∧
    (∀ c, State.recordCmd r.octets = some c → s.activeOwner = none → beAt 0 2 r.octets ≠ 0x0D02 → Completes .go s (fun t =>
      t.mail.queue = q ∧ t.mail.current = none ∧ t.mail.status = statusCode .notPermitted ∧
      t.mail.reply = (if beAt 0 2 r.octets = 0x0D08 then keyWrapReply s.fixed .notPermitted (zeros 40)
        else replyBytes (beAt 0 2 r.octets) .notPermitted []) ∧ mailOnly s t)) ∧
    (State.recordCmd r.octets = none → Completes .go s (fun t =>
      t.mail.queue = q ∧ t.mail.current = none ∧ t.mail.status = statusCode .badDescriptor ∧
      t.mail.reply = replyBytes (beAt 0 2 r.octets) .badDescriptor [] ∧ mailOnly s t))) ∧
  (∀ (s : State) (c : Instr), s.mail.current = none → s.mail.queue = [] → s.activeOwner.isSome = true →
    State.recordCmd (memRead 0 s.mail.buffer 0 s.mail.length) = some c → Completes .go s (fun t =>
      t.mail.current = some ⟨none, memRead 0 s.mail.buffer 0 s.mail.length⟩ ∧ t.mail.length = s.mail.length ∧
      t = { s with mail := t.mail, handed := s.handed ++ [(none, c)] })) ∧
  (∀ (s : State) (a n k : Nat), readRangeOk a n k = false → Completes (.read a n k) s (fun t =>
    mailed s t .badDescriptor (replyBytes 0x0D10 .badDescriptor []) ∧ mailOnly s t)) ∧
  (∀ (s : State) (a n k : Nat), readRangeOk a n k = true → 0x200000 ≤ a → Completes (.read a n k) s (fun t =>
    mailed s t .notPermitted (replyBytes 0x0D10 .notPermitted []) ∧ mailOnly s t)) ∧
  (∀ (s : State) (a n k : Nat), readRangeOk a n k = true → a < 0x200000 → Completes (.read a n k) s (fun t =>
    mailed s t .ok (replyBytes 0x0D10 .ok ((List.range (n / 4)).flatMap (fun i => s.mgmtWord (a + 4 * i) k))) ∧
    mailOnly { s with freeCtr := if 0x2000 ≤ a ∧ a < 0x2028 then s.freeCtr + 8 else s.freeCtr } t)) ∧
  (∀ (s : State) (v : Nat), exec (.write 0x100004 v) s = .next (s.hand (.readSeqWrite v))) ∧
  (∀ (s : State) (a v : Nat), a ≠ 0x100004 → Completes (.write a v) s (fun t =>
    mailed s t .notPermitted (replyBytes 0x0D11 .notPermitted []) ∧ mailOnly s t)) ∧
  (∀ (s : State) (v : Nat),
    let ok := decide (serialDiff 32 v s.events.readSeq ≤ serialDiff 32 s.events.writeSeq s.events.readSeq)
    let u : State := if ok then { s with events := { s.events with readSeq := v % 2 ^ 32 } } else s
    (s.mail.current = none → exec (.readSeqWrite v) s = .next u) ∧
    (s.mail.current.isSome = true → Completes (.readSeqWrite v) s (fun t =>
      mailed s t (if ok then .ok else .badDescriptor) (replyBytes 0x0D11 (if ok then .ok else .badDescriptor) []) ∧ mailOnly u t))) ∧
  (∀ (s : State) (v : Word64), exec (.registerWrite (.mgmt 0x200008) v) s =
    .next { s with mail := { s.mail with length := v.toNat % 2 ^ 32 % 2 ^ 25 } }) ∧
  (∀ (s : State) (k : Nat) (v : Word64), k + 4 ≤ 0x1000000 → Completes (.registerWrite (.mgmt (0x1000000 + k)) v) s (fun t =>
    (∀ a, memByte 0 t.mail.buffer a = if k ≤ a ∧ a < k + 4 then BitVec.ofNat 8 (v.toNat / 256 ^ (a - k)) else memByte 0 s.mail.buffer a) ∧
    t = { s with mail := { s.mail with buffer := t.mail.buffer } })) ∧
  (∀ (s : State) (x : Octets) (h : SlateHeader) (d : Nat) (l : List Nat) (r : MailIn), s.flash.update = none →
    checkHeader s.activeOwner s.fixed.uid.toNat x = .ok h → s.workingDevs = d :: l → s.mail.current = some r →
    Completes (.imageBegin x) s (fun t => t.mail.current = none ∧ t.mail.status = s.mail.status ∧ t.mail.reply = s.mail.reply ∧
      ∃ u, t.flash.update = some u ∧ u.stage = .erasing ∧ u.via = r.via)) ∧
  (∀ (s : State) (u : Update), s.flash.update = some u → u.stage = .erasing → s.mail.current = none → Completes .slotEraseDone s (fun t =>
    t.mail = { s.mail with status := statusCode .ok, reply := replyBytes 0x0D05 .ok [] } ∧
    t.flash.update = some { u with stage := .receiving })) ∧
  (∀ (s : State) (u : Update) (x : Octets) (r : MailIn), s.flash.update = some u → u.stage = .receiving → u.background = false →
    u.next + x.length ≤ u.length → s.mail.current = some r → Completes (.imageData u.next x) s (fun t =>
      t.mail.current = none ∧ t.mail.status = s.mail.status ∧ t.mail.reply = s.mail.reply ∧
      t.flash.update = some { u with stage := .programming, via := r.via, next := u.next + x.length })) ∧
  (∀ (s : State) (d : Fin 2) (u : Update) (a : Nat) (x : Octets), (s.flashDev d).rest = some (a, x) → a < logBase →
    s.flash.update = some u → u.dev = d.val → u.stage = .programming → s.mail.current = none → Completes (.flashProgramDone d) s (fun t =>
      t.mail = { s.mail with status := statusCode .ok, reply := replyBytes 0x0D06 .ok [] } ∧
      t.flash.update = some { u with stage := .receiving })) ∧
  (∀ (s : State) (u : Update) (r : MailIn), s.flash.update = some u → u.stage = .receiving → u.background = false →
    s.readBackFails (s.updateImage u) u = none → s.mail.current = some r → Completes .imageEnd s (fun t =>
      t.mail.current = none ∧ t.mail.status = s.mail.status ∧ t.mail.reply = s.mail.reply ∧
      ∃ v, t.flash.update = some v ∧ v.stage = .commit0 ∧ v.via = r.via ∧ v.digest = sha384 (s.updateImage u))) ∧
  (∀ (s : State) (u : Update), s.flash.update = some u → u.stage = .receiving →
    Completes .imageUpdateTimeout s (fun t => t.mail = s.mail ∧ t.flash.update = none)) ∧
  (∀ (s : State) (u : Update) (e slot : Nat) (ok : Bool), s.flash.update = some u → u.stage = .copying → u.second = some (e, slot) →
    Completes (.secondDeviceCopyDone ok) s (fun t => t.mail = s.mail ∧ t.flash.update = none ∧ t.basalt = s.basalt)) ∧
  (∀ (s : State) (b : Candidate), s.boot.image = some b → s.boot.phase = .ready → (s.flashDev (1 - b.dev)).works = true →
    s.flash.update = none → highestCommit (s.flashDev (1 - b.dev)).cells = none → Completes .backgroundCopy s (fun t =>
      t.mail = s.mail ∧ ∃ u, t.flash.update = some u ∧ u.stage = .copying ∧ u.background = true ∧ u.seq = b.seq)) ∧
  (∀ (s : State) (d : Fin 2) (w : LogWait), s.flash.waiting = [w] → w.devs = [d.val] → (s.flashDev d).works = true →
    (s.flashDev d).logBusy = false → Completes .criticalLogWrite s (fun t => t.mail = s.mail ∧ t.flash.waiting = [] ∧
      (t.flashDev d).rest.isSome = true)) ∧
  (∀ s : State, s.events.queue = [] → exec .eventQueueDrain s = .next s) ∧
  (∀ (s : State) (w : EvWait) (x : EvEntry), s.events.queue = [w] → w.entries = [x] → s.events.ring.length < 65536 →
    let full := serialDiff 32 s.events.writeSeq s.events.readSeq == 65536
    exec .eventQueueDrain s = .next { s with events := {
      queue := [], ring := s.events.ring ++ [(s.events.writeSeq, x)], writeSeq := (s.events.writeSeq + 1) % 2 ^ 32,
      readSeq := if full then (s.events.readSeq + 1) % 2 ^ 32 else s.events.readSeq,
      lost := if full then (s.events.lost + 1) % 2 ^ 64 else s.events.lost } }) ∧
  ∀ (s : State) (w : EvWait) (r : List EvWait), s.events.queue = w :: r → 5 ≤ w.entries.length → s.events.writeSeq < 2 ^ 32 →
    Completes .eventQueueDrain s (fun t => t.events.queue = { w with started := true, entries := w.entries.drop 4 } :: r ∧
      t.events.writeSeq = (s.events.writeSeq + 4) % 2 ^ 32 ∧ t = { s with events := t.events })
end

