-- ==== Sys2Proof/Laws/Frames.lean ====
section
/-! SUPPORT. What the shared operations can do, said once each: events, counters, work handed on, the switch core's books and
completions leave everything alone but the fields that each lemma names. -/

namespace Sys2Proof.Machine

/-! ### Events and counters -/

/-- Logging a critical event touches the log's own books in flash and no cell. -/
theorem State.logCritical_frame (s : State) (e : EvEntry) :
    ∃ f : Flash, s.logCritical e = { s with flash := f } ∧ f.devs = s.flash.devs ∧ f.update = s.flash.update := by
  unfold State.logCritical
  simp only
  split
  · exact ⟨_, rfl, rfl, rfl⟩
  · exact ⟨_, rfl, rfl, rfl⟩

/-- The same of a list of critical events. -/
theorem State.logCriticals_frame (es : List EvEntry) (s : State) :
    ∃ f : Flash, es.foldl State.logCritical s = { s with flash := f } ∧ f.devs = s.flash.devs ∧ f.update = s.flash.update := by
  induction es generalizing s with
  | nil => exact ⟨s.flash, rfl, rfl, rfl⟩
  | cons e r ih =>
    obtain ⟨f, h, d, u⟩ := s.logCritical_frame e
    obtain ⟨g, h', d', u'⟩ := ih (s.logCritical e)
    refine ⟨g, ?_, ?_, ?_⟩
    · rw [List.foldl_cons, h', h]
    · rw [d', h]; exact d
    · rw [u', h]; exact u

/-- Raising an event changes the event log and the critical log's books, and no cell of flash. -/
theorem State.raiseAll_frame (s : State) (code : Nat) (p : Option Nat) (l : List Octets) :
    ∃ (e : EventLog) (f : Flash), s.raiseAll code p l = { s with events := e, flash := f } ∧ f.devs = s.flash.devs ∧
      f.update = s.flash.update ∧ e.ring = s.events.ring ∧ e.writeSeq = s.events.writeSeq ∧ e.readSeq = s.events.readSeq := by
  unfold State.raiseAll
  simp only
  obtain ⟨f, h, d, u⟩ := State.logCriticals_frame
    (l.map (fun x => (⟨code, criticalCode code, p, s.quartz.secs, s.quartz.ns, x⟩ : EvEntry))) s
  by_cases c : criticalCode code = true
  · simp only [c, if_true] at *
    rw [h]
    split
    · exact ⟨_, f, rfl, d, u, rfl, rfl, rfl⟩
    · exact ⟨_, f, rfl, d, u, rfl, rfl, rfl⟩
  · have c' : criticalCode code = false := by simpa using c
    simp only [c', Bool.false_eq_true, if_false]
    split
    · exact ⟨_, s.flash, rfl, rfl, rfl, rfl, rfl, rfl⟩
    · exact ⟨_, s.flash, rfl, rfl, rfl, rfl, rfl, rfl⟩

/-- An event that is not critical leaves flash alone. -/
theorem State.raise_flash {s : State} {code : Nat} (h : criticalCode code = false) (p : Option Nat) (x : Octets) :
    (s.raise code p x).flash = s.flash := by
  simp only [State.raise, State.raiseAll, h, Bool.false_eq_true, if_false]
  split <;> rfl

/-- One event. -/
theorem State.raise_frame (s : State) (code : Nat) (p : Option Nat) (x : Octets) :
    ∃ (e : EventLog) (f : Flash), s.raise code p x = { s with events := e, flash := f } ∧ f.devs = s.flash.devs ∧
      f.update = s.flash.update ∧ e.ring = s.events.ring ∧ e.writeSeq = s.events.writeSeq ∧ e.readSeq = s.events.readSeq :=
  s.raiseAll_frame code p [x]

/-- A counter's increment changes counters and the event log alone. -/
theorem State.bumpBy_frame (s : State) (c : Ctr) (n : Nat) :
    s.bumpBy c n = { s with ctrs := (s.bumpBy c n).ctrs, events := (s.bumpBy c n).events } := by
  unfold State.bumpBy
  simp only
  split
  · rfl
  · split
    · rfl
    · split
      · obtain ⟨e, f, h, -⟩ := State.raise_frame { s with ctrs := setSparse c (min (s.ctr c + n) 0xFFFFFFFF) 0 s.ctrs } 0x0001
          (s.ctrPlace c).2.2 (State.oct 0 ++ leBytes 2 (s.ctrPlace c).1 ++ leBytes 4 (s.ctrPlace c).2.1)
        have q := State.raise_flash (s := { s with ctrs := setSparse c (min (s.ctr c + n) 0xFFFFFFFF) 0 s.ctrs }) (code := 0x0001) rfl
          (s.ctrPlace c).2.2 (State.oct 0 ++ leBytes 2 (s.ctrPlace c).1 ++ leBytes 4 (s.ctrPlace c).2.1)
        rw [h] at q ⊢
        simp only at q
        rw [q]
      · rfl

/-- The same of an increment by one. -/
theorem State.bump_frame (s : State) (c : Ctr) : s.bump c = { s with ctrs := (s.bump c).ctrs, events := (s.bump c).events } :=
  s.bumpBy_frame c 1

/-- Nothing is counted for a FREE partition (R434). -/
theorem State.bump_gone {s : State} {c : Ctr} (h : s.ctrGone c = true) : s.bump c = s := by
  simp [State.bump, State.bumpBy, h]

/-- A partition's change of state touches the partitions, the event log and the critical log's books. -/
theorem State.setPState_frame (s : State) (p : Nat) (st : PState) (cause : Nat) :
    ∃ (e : EventLog) (f : Flash), s.setPState p st cause =
      { s.updPart p (fun q => { q with state := st }) with events := e, flash := f } ∧ f.devs = s.flash.devs := by
  obtain ⟨e, f, h, d, -⟩ := State.raise_frame (s.updPart p (fun q => { q with state := st })) 0x0401 (some p)
    (State.oct cause ++ State.oct (pstateCode (s.part p).state) ++ State.oct (pstateCode st))
  exact ⟨e, f, h, d⟩

/-! ### Free values and work handed on -/

/-- A free value costs one draw. -/
@[simp] theorem State.free_state (s : State) : s.free.2 = { s with freeCtr := s.freeCtr + 1 } := rfl

/-- Free octets cost as many draws. -/
@[simp] theorem State.freeOctets_state (s : State) (n : Nat) : (s.freeOctets n).2 = { s with freeCtr := s.freeCtr + n } := rfl

/-- Handing on a list of commands adds them to the work in their order. -/
theorem State.hands {α : Type} (f : α → Instr) (l : List α) (s : State) :
    l.foldl (fun s x => s.hand (f x)) s = { s with handed := s.handed ++ l.map (fun x => (none, f x)) } := by
  induction l generalizing s with
  | nil => simp
  | cons x r ih =>
    rw [List.foldl_cons, ih]
    simp only [State.hand, List.append_assoc, List.map_cons, List.singleton_append]

/-! ### The switch core's books -/

/-- A change of an item, a buffer or a pool stays within the switch core. -/
theorem State.updItem_frame (s : State) (id : Nat) (f : Item → Item) : s.updItem id f = { s with sw := (s.updItem id f).sw } := rfl
theorem State.updBuf_frame (s : State) (b : Nat × Nat × Nat) (f : Buf → Buf) : s.updBuf b f = { s with sw := (s.updBuf b f).sw } := rfl
theorem State.updPool_frame (s : State) (d k : Nat) (f : Pool → Pool) : s.updPool d k f = { s with sw := (s.updPool d k f).sw } := rfl
theorem State.allocBuf_frame (s : State) (p d k refs : Nat) : (s.allocBuf p d k refs).2 = { s with sw := (s.allocBuf p d k refs).2.sw } := rfl

/-- The pools stay as many as they are. -/
@[simp] theorem State.updPool_pools_length (s : State) (d k : Nat) (f : Pool → Pool) :
    (s.updPool d k f).sw.pools.length = s.sw.pools.length := by simp [State.updPool]

/-- An item offered joins the items under the next number, and its admission is handed on. -/
theorem State.offer_frame (s : State) (p cls : Nat) (w : Writer) (org : Origin) (l : Load) (outs : List (Nat × Nat)) (rx : Option (Nat × Nat)) :
    s.offer p cls w org l outs rx = { s with
      sw := { s.sw with items := s.sw.items ++ [⟨s.sw.nextItem, p, cls, loadLength l, w, org, l, outs, .offered, none, rx, none, s.cycle⟩], nextItem := s.sw.nextItem + 1 },
      handed := s.handed ++ [(none, .itemAdmission s.sw.nextItem)] } := rfl

/-- A retest hands work on and does nothing else. -/
theorem State.retest_frame (s : State) (p d : Nat) : s.retest p d = { s with handed := (s.retest p d).handed } := by
  unfold State.retest
  rw [State.hands, State.hands]

/-- The count of a fault in a buffer's book touches counters, events and the critical log's books. -/
theorem State.countFault_frame (s : State) (b : Nat × Nat × Nat) (p : Nat) :
    ∃ (c : List (Ctr × Nat)) (e : EventLog) (f : Flash), s.countFault b p = { s with ctrs := c, events := e, flash := f } ∧
      f.devs = s.flash.devs := by
  unfold State.countFault
  rw [State.bump_frame]
  obtain ⟨e, f, h, d, -⟩ := State.raise_frame
    { s with ctrs := (s.bump (.bufQuarantined b.1 b.2.1)).ctrs, events := (s.bump (.bufQuarantined b.1 b.2.1)).events }
    0x0501 (some p) (State.oct 1 ++ State.oct b.1 ++ State.oct b.2.1)
  exact ⟨_, e, f, h, d⟩

/-- Letting go of a buffer touches the switch core, counters, events and the critical log's books, and no cell. -/
theorem State.decRef_frame (s : State) (b : Nat × Nat × Nat) :
    ∃ (w : Switch) (c : List (Ctr × Nat)) (e : EventLog) (f : Flash),
      s.decRef b = { s with sw := w, ctrs := c, events := e, flash := f } ∧ f.devs = s.flash.devs := by
  unfold State.decRef
  split
  · rename_i x _
    split
    · obtain ⟨c, e, f, h, d⟩ := State.countFault_frame
        (s.takeBuf b (fun q => { q with quarantined := q.quarantined ++ [(b.2.2, x.part)] })) b x.part
      exact ⟨_, c, e, f, h, d⟩
    · split
      · exact ⟨_, s.ctrs, s.events, s.flash, rfl, rfl⟩
      · exact ⟨_, s.ctrs, s.events, s.flash, rfl, rfl⟩
  · split
    · rename_i g _
      split
      · obtain ⟨c, e, f, h, d⟩ := State.countFault_frame (s.updPool b.1 b.2.1 (fun q =>
          { q with freed := q.freed.filter (fun y => y.1 != b.2.2), quarantined := q.quarantined ++ [g] })) b g.2
        exact ⟨_, c, e, f, h, d⟩
      · obtain ⟨c, e, f, h, d⟩ := State.countFault_frame s b g.2
        exact ⟨s.sw, c, e, f, h, d⟩
    · exact ⟨s.sw, s.ctrs, s.events, s.flash, rfl, rfl⟩

/-- A push touches the switch core and hands work on. -/
theorem State.pushBuf_frame (s : State) (b : Nat × Nat × Nat) :
    s.pushBuf b = { s with sw := (s.pushBuf b).sw, handed := (s.pushBuf b).handed } := by
  unfold State.pushBuf
  split
  · split
    · rw [State.retest_frame]
      rfl
    · rfl
  · rfl

/-! ### Completions -/

/-- A completion is one item offered: the switch core and work handed on change. -/
theorem State.sendCompletion_frame (s : State) (p : Nat) (h : DescHdr) (op : Nat) (st : Status) (body : Octets) :
    s.sendCompletion p h op st body = { s with
      sw := (s.sendCompletion p h op st body).sw, handed := (s.sendCompletion p h op st body).handed } := rfl

/-- Releasing fences hands work on. -/
theorem State.releaseFences_frame (s : State) : s.releaseFences = { s with handed := s.releaseFences.handed } := by
  unfold State.releaseFences
  rw [State.hands]

/-- So does the look at a waiting STEP_END. -/
theorem State.checkStep_frame (s : State) (p : Nat) : s.checkStep p = { s with handed := (s.checkStep p).handed } := by
  unfold State.checkStep
  split <;> rfl

/-- A change of a descriptor that keeps its number keeps all the numbers. -/
theorem State.updDesc_ids (s : State) (id : Nat) (f : Desc → Desc) (h : ∀ d, (f d).id = d.id) :
    (s.updDesc id f).descs.map Desc.id = s.descs.map Desc.id := by
  unfold State.updDesc mapWhen
  simp only [List.map_map]
  apply List.map_congr_left
  intro d _
  simp only [Function.comp]
  split
  · exact h d
  · rfl

/-- What waited behind a memory operation goes on: it is marked as running and handed on. -/
theorem State.wakeBehind_frame (s : State) (key : Option (Nat × Nat × Nat)) :
    ∃ (ds : List Desc) (h : List (Option Nat × Instr)), s.wakeBehind key = { s with descs := ds, handed := h } ∧
      ds.map Desc.id = s.descs.map Desc.id := by
  unfold State.wakeBehind
  split
  · rename_i e _
    exact ⟨_, _, rfl, s.updDesc_ids e.id (fun x => { x with hold := .running }) (fun _ => rfl)⟩
  · exact ⟨s.descs, s.handed, rfl, rfl⟩

/-- A descriptor that completes leaves the books of descriptors and waits; the switch core and work handed on change with it. -/
theorem State.complete_frame (s : State) (id : Nat) (st : Status) (body : Octets) :
    ∃ (w : Switch) (h : List (Option Nat × Instr)) (ds : List Desc), s.complete id st body = { s with
      sw := w, handed := h, descs := ds
      waits := if (s.desc id).isSome then s.waits.filter (fun x => x.desc != id) else s.waits } ∧
      ds.map Desc.id = (if (s.desc id).isSome then s.descs.filter (fun x => x.id != id) else s.descs).map Desc.id := by
  unfold State.complete
  split
  · rename_i h
    exact ⟨s.sw, s.handed, s.descs, by simp [h], by simp [h]⟩
  · rename_i d h
    simp only [h, Option.isSome_some, if_true]
    rw [State.checkStep_frame, State.releaseFences_frame]
    obtain ⟨ds, l, q, r⟩ := State.wakeBehind_frame
      { s with descs := s.descs.filter (fun x => x.id != id), waits := s.waits.filter (fun w => w.desc != id) } (s.memOrder d)
    rw [q]
    split
    · exact ⟨_, _, ds, rfl, r⟩
    · exact ⟨_, _, ds, rfl, r⟩

end Sys2Proof.Machine
end

