-- ==== Sys2Proof/Laws/Memory.lean ====
section
/-! SUPPORT. Memories in their canonical form: every memory operation keeps it, a read after a write gives what was written, and a
write leaves every other octet alone. -/

namespace Sys2Proof.Machine

/-- Addresses strictly rise, as a pairwise statement. -/
theorem cellsSorted_iff (m : List Host.Cell) : cellsSorted m = true ↔ m.Pairwise (fun a b => a.1 < b.1) := by
  induction m with
  | nil => simp [cellsSorted]
  | cons a r ih =>
    cases r with
    | nil => simp [cellsSorted]
    | cons b t =>
      rw [cellsSorted, Bool.and_eq_true, ih, decide_eq_true_iff, List.pairwise_cons (a := a)]
      constructor
      · rintro ⟨h, h1⟩
        refine ⟨fun c hc => ?_, h1⟩
        rcases List.mem_cons.1 hc with rfl | hc
        · exact h
        · exact h.trans ((List.pairwise_cons.1 h1).1 c hc)
      · rintro ⟨h, h1⟩
        exact ⟨h b (by simp), h1⟩

/-- The canonical form as two statements. -/
theorem memWf_iff (d : Byte) (m : List Host.Cell) :
    memWf d m = true ↔ m.Pairwise (fun a b => a.1 < b.1) ∧ ∀ c ∈ m, c.2 ≠ d := by
  simp [memWf, cellsSorted_iff, List.all_eq_true]

/-- Any cells taken out of a canonical memory leave a canonical one. -/
theorem memWf_filter {d : Byte} {m : List Host.Cell} (h : memWf d m = true) (p : Host.Cell → Bool) :
    memWf d (m.filter p) = true := by
  rw [memWf_iff] at *
  exact ⟨h.1.filter p, fun c hc => h.2 c (List.mem_filter.1 hc).1⟩

/-- The cells of an octet string lie in its range and differ from what an unlisted address reads as. -/
theorem mem_cellsOf {d : Byte} {x : Octets} {a : Nat} {c : Host.Cell} (h : c ∈ cellsOf d a x) :
    a ≤ c.1 ∧ c.1 < a + x.length ∧ c.2 ≠ d := by
  induction x generalizing a with
  | nil => simp [cellsOf] at h
  | cons b r ih =>
    rw [cellsOf] at h
    split at h
    · obtain ⟨h1, h2, h3⟩ := ih h
      exact ⟨by omega, by simp only [List.length_cons]; omega, h3⟩
    · rename_i hb
      rcases List.mem_cons.1 h with rfl | h
      · exact ⟨le_refl _, by simp, by simpa using hb⟩
      · obtain ⟨h1, h2, h3⟩ := ih h
        exact ⟨by omega, by simp only [List.length_cons]; omega, h3⟩

/-- The cells of an octet string are in canonical form. -/
theorem cellsOf_wf (d : Byte) (x : Octets) (a : Nat) : memWf d (cellsOf d a x) = true := by
  rw [memWf_iff]
  refine ⟨?_, fun c hc => (mem_cellsOf hc).2.2⟩
  induction x generalizing a with
  | nil => simp [cellsOf]
  | cons b r ih =>
    rw [cellsOf]
    split
    · exact ih (a + 1)
    · refine List.pairwise_cons.2 ⟨fun c hc => ?_, ih (a + 1)⟩
      have := mem_cellsOf hc; simp only; omega

/-- A write keeps the canonical form. -/
theorem memWrite_wf {d : Byte} {m : List Host.Cell} (h : memWf d m = true) (a : Nat) (x : Octets) :
    memWf d (memWrite d m a x) = true := by
  have h1 := (memWf_iff d _).1 (memWf_filter h (fun c => decide (c.1 < a)))
  have h2 := (memWf_iff d _).1 (memWf_filter h (fun c => decide (a + x.length ≤ c.1)))
  have h3 := (memWf_iff d _).1 (cellsOf_wf d x a)
  rw [memWf_iff, memWrite]
  refine ⟨?_, ?_⟩
  · rw [List.pairwise_append, List.pairwise_append]
    refine ⟨⟨h1.1, h3.1, ?_⟩, h2.1, ?_⟩
    · intro u hu v hv
      have := mem_cellsOf hv
      have hu := (List.mem_filter.1 hu).2
      simp at hu; omega
    · intro u hu v hv
      have hv := (List.mem_filter.1 hv).2
      simp at hv
      rcases List.mem_append.1 hu with hu | hu
      · have hu := (List.mem_filter.1 hu).2
        simp at hu; omega
      · have := mem_cellsOf hu; omega
  · intro c hc
    rcases List.mem_append.1 hc with hc | hc
    · rcases List.mem_append.1 hc with hc | hc
      · exact h1.2 c hc
      · exact h3.2 c hc
    · exact h2.2 c hc

/-- A clear keeps the canonical form. -/
theorem memClear_wf {d : Byte} {m : List Host.Cell} (h : memWf d m = true) (a n : Nat) : memWf d (memClear m a n) = true :=
  memWf_filter h _

/-- The empty memory is in canonical form. -/
theorem memWf_nil (d : Byte) : memWf d [] = true := rfl

/-- An address that no cell lists reads as `d`. -/
theorem memByte_of_not_mem {d : Byte} {m : List Host.Cell} {k : Nat} (h : ∀ c ∈ m, c.1 ≠ k) : memByte d m k = d := by
  induction m with
  | nil => rfl
  | cons c r ih =>
    obtain ⟨a, b⟩ := c
    have hc : a ≠ k := h (a, b) (by simp)
    simp only [memByte, beq_iff_eq, if_neg hc]
    exact ih (fun c hc => h c (by simp [hc]))

/-- A read over two runs of cells: the first run answers where it lists the address. -/
theorem memByte_append {d : Byte} (m n : List Host.Cell) (k : Nat) :
    memByte d (m ++ n) k = if ∃ c ∈ m, c.1 = k then memByte d m k else memByte d n k := by
  induction m with
  | nil => simp
  | cons c r ih =>
    obtain ⟨a, b⟩ := c
    by_cases h : a = k
    · simp [memByte, h]
    · simp only [List.cons_append, memByte, beq_iff_eq, if_neg h, ih]
      simp [h]

/-- Cells taken out that do not list an address leave its reading alone. -/
theorem memByte_filter {d : Byte} (m : List Host.Cell) (p : Host.Cell → Bool) (k : Nat)
    (h : ∀ c ∈ m, c.1 = k → p c = true) : memByte d (m.filter p) k = memByte d m k := by
  induction m with
  | nil => rfl
  | cons c r ih =>
    obtain ⟨a, b⟩ := c
    have ih := ih (fun c hc => h c (by simp [hc]))
    by_cases hp : p (a, b) = true
    · rw [List.filter_cons, if_pos hp]
      simp only [memByte, ih]
    · have hk : a ≠ k := fun e => hp (h (a, b) (by simp) e)
      rw [List.filter_cons, if_neg hp, ih]
      simp only [memByte, beq_iff_eq, if_neg hk]

/-- Reading the cells of an octet string. -/
theorem memByte_cellsOf (d : Byte) (x : Octets) (a k : Nat) :
    memByte d (cellsOf d a x) k = if a ≤ k then x.getD (k - a) d else d := by
  induction x generalizing a with
  | nil => simp [cellsOf, memByte]
  | cons b r ih =>
    rw [cellsOf]
    by_cases hb : b = d
    · simp only [hb, beq_self_eq_true, if_true, ih]
      by_cases h1 : a + 1 ≤ k
      · have : k - a = (k - (a + 1)) + 1 := by omega
        simp [h1, this, show a ≤ k by omega]
      · by_cases h2 : a ≤ k
        · have : k = a := by omega
          simp [this]
        · simp [h1, h2]
    · simp only [beq_iff_eq, hb, if_false, memByte, ih]
      by_cases h0 : a = k
      · simp [h0]
      · by_cases h1 : a + 1 ≤ k
        · have : k - a = (k - (a + 1)) + 1 := by omega
          simp [h0, h1, this, show a ≤ k by omega]
        · simp [h0, h1, show ¬ a ≤ k by omega]

/-- A read after a write: the octets written where they lie, every other octet as it was. -/
theorem memByte_memWrite (d : Byte) (m : List Host.Cell) (a : Nat) (x : Octets) (k : Nat) :
    memByte d (memWrite d m a x) k = if a ≤ k ∧ k < a + x.length then x.getD (k - a) d else memByte d m k := by
  rw [memWrite, memByte_append, memByte_append]
  by_cases hlo : k < a
  · have hn : ¬ (a ≤ k ∧ k < a + x.length) := by omega
    have h3 : memByte d (m.filter (fun c => decide (a + x.length ≤ c.1))) k = d := by
      refine memByte_of_not_mem (fun c hc e => ?_)
      have := (List.mem_filter.1 hc).2; simp at this; omega
    have h2 : memByte d (cellsOf d a x) k = d := by rw [memByte_cellsOf, if_neg (show ¬ a ≤ k by omega)]
    have h1 : memByte d (m.filter (fun c => decide (c.1 < a))) k = memByte d m k :=
      memByte_filter m _ k (fun c _ e => by simp; omega)
    rw [if_neg hn, h1, h2, h3]
    by_cases hm : ∃ c ∈ m.filter (fun c => decide (c.1 < a)), c.1 = k
    · rw [if_pos hm]; split
      · rfl
      · rename_i h; obtain ⟨c, hc, e⟩ := hm; exact absurd ⟨c, List.mem_append_left _ hc, e⟩ h
    · have hd : memByte d m k = d := by
        refine memByte_of_not_mem (fun c hc e => hm ⟨c, List.mem_filter.2 ⟨hc, by simp; omega⟩, e⟩)
      rw [if_neg hm, hd]; split <;> rfl
  · by_cases hhi : k < a + x.length
    · have h1 : ¬ ∃ c ∈ m.filter (fun c => decide (c.1 < a)), c.1 = k := by
        rintro ⟨c, hc, e⟩
        have := (List.mem_filter.1 hc).2; simp at this; omega
      have h3 : memByte d (m.filter (fun c => decide (a + x.length ≤ c.1))) k = d := by
        refine memByte_of_not_mem (fun c hc e => ?_)
        have := (List.mem_filter.1 hc).2; simp at this; omega
      rw [if_neg h1, if_pos (⟨by omega, hhi⟩ : a ≤ k ∧ k < a + x.length), h3, memByte_cellsOf, if_pos (show a ≤ k by omega)]
      split
      · rfl
      · rename_i h
        have h4 : memByte d (cellsOf d a x) k = d := by
          refine memByte_of_not_mem (fun c hc e => h ⟨c, List.mem_append_right _ hc, e⟩)
        rw [memByte_cellsOf, if_pos (show a ≤ k by omega)] at h4
        exact h4.symm
    · have h1 : ¬ ∃ c ∈ m.filter (fun c => decide (c.1 < a)) ++ cellsOf d a x, c.1 = k := by
        rintro ⟨c, hc, e⟩
        rcases List.mem_append.1 hc with hc | hc
        · have := (List.mem_filter.1 hc).2; simp at this; omega
        · have := mem_cellsOf hc; omega
      rw [if_neg h1, if_neg (show ¬ (a ≤ k ∧ k < a + x.length) by omega)]
      exact memByte_filter m _ k (fun c _ e => by simp; omega)

/-- A clear makes its range read as `d` and leaves the rest alone. -/
theorem memByte_memClear (d : Byte) (m : List Host.Cell) (a n k : Nat) :
    memByte d (memClear m a n) k = if a ≤ k ∧ k < a + n then d else memByte d m k := by
  by_cases h : a ≤ k ∧ k < a + n
  · rw [if_pos h]
    refine memByte_of_not_mem (fun c hc e => ?_)
    have := (List.mem_filter.1 hc).2; simp at this; omega
  · rw [if_neg h]
    exact memByte_filter m _ k (fun c _ e => by simp; omega)

/-- Reading past the cells of lower addresses. -/
theorem memFill_eq (d : Byte) (n a : Nat) (m : List Host.Cell) (hs : m.Pairwise (fun x y => x.1 < y.1)) (h : ∀ c ∈ m, a ≤ c.1) :
    memFill d n a m = (List.range n).map (fun i => memByte d m (a + i)) := by
  induction n generalizing a m with
  | zero => cases m <;> simp [memFill]
  | succ n ih =>
    rw [List.range_succ_eq_map, List.map_cons, List.map_map]
    cases m with
    | nil => simp only [memFill]; rw [ih _ _ hs (by simp)]; simp [memByte, Function.comp_def]
    | cons c r =>
      obtain ⟨k, v⟩ := c
      have hk := h (k, v) (by simp)
      simp only at hk
      rw [List.pairwise_cons] at hs
      by_cases e : k = a
      · subst e
        simp only [memFill, beq_self_eq_true, if_true]
        rw [ih _ r hs.2 (fun c hc => by have := hs.1 c hc; simp only at this; omega)]
        congr 1
        · simp [memByte]
        · refine List.map_congr_left (fun i _ => ?_)
          simp only [Function.comp, memByte, beq_iff_eq]
          rw [if_neg (by omega)]; congr 1; omega
      · simp only [memFill, beq_iff_eq, if_neg e]
        rw [ih _ _ (List.pairwise_cons.2 hs) (fun c hc => by
          rcases List.mem_cons.1 hc with rfl | hc
          · simp only; omega
          · have := hs.1 c hc; simp only at this; omega)]
        congr 1
        · simp only [memByte, beq_iff_eq, Nat.add_zero]
          rw [if_neg e]
          refine (memByte_of_not_mem (fun c hc e' => ?_)).symm
          have := hs.1 c hc; simp only at this; omega
        · refine List.map_congr_left (fun i _ => ?_)
          simp only [Function.comp]; congr 1; omega

/-- A read of a canonical memory is a read of each octet. -/
theorem memRead_eq {d : Byte} {m : List Host.Cell} (h : memWf d m = true) (a n : Nat) :
    memRead d m a n = (List.range n).map (fun i => memByte d m (a + i)) := by
  have hs := ((memWf_iff d m).1 h).1
  rw [memRead, memCells, memFill_eq _ _ _ _ (hs.filter _) (fun c hc => by
    have := (List.mem_filter.1 hc).2; simp at this; omega)]
  refine List.map_congr_left (fun i hi => ?_)
  have hi := List.mem_range.1 hi
  exact memByte_filter m _ _ (fun c _ e => by simp; omega)

/-- A read gives as many octets as were asked for. -/
theorem memRead_length {d : Byte} {m : List Host.Cell} (h : memWf d m = true) (a n : Nat) : (memRead d m a n).length = n := by
  simp [memRead_eq h]

/-- A read of exactly what was written. -/
theorem memRead_memWrite {d : Byte} {m : List Host.Cell} (h : memWf d m = true) (a : Nat) (x : Octets) :
    memRead d (memWrite d m a x) a x.length = x := by
  rw [memRead_eq (memWrite_wf h a x)]
  apply List.ext_getElem
  · simp
  · intro i h1 h2
    simp only [List.getElem_map, List.getElem_range, memByte_memWrite]
    rw [if_pos ⟨by omega, by omega⟩]
    simp [List.getD_eq_getElem?_getD, h2]

end Sys2Proof.Machine
end

