-- ==== Sys2Proof/Laws/State.lean ====
section
/-! SUPPORT. What the single-field updates of Machine/Ops.lean leave and what they change: one lemma per update and field. -/

namespace Sys2Proof.Machine

/-! ### updPart -/

@[simp] theorem State.updPart_pending (s : State) (p : Nat) (f : PartState → PartState) : (s.updPart p f).pending = s.pending := rfl
@[simp] theorem State.updPart_handed (s : State) (p : Nat) (f : PartState → PartState) : (s.updPart p f).handed = s.handed := rfl
@[simp] theorem State.updPart_resuming (s : State) (p : Nat) (f : PartState → PartState) : (s.updPart p f).resuming = s.resuming := rfl
@[simp] theorem State.updPart_freeCtr (s : State) (p : Nat) (f : PartState → PartState) : (s.updPart p f).freeCtr = s.freeCtr := rfl
@[simp] theorem State.updPart_cycle (s : State) (p : Nat) (f : PartState → PartState) : (s.updPart p f).cycle = s.cycle := rfl
@[simp] theorem State.updPart_out (s : State) (p : Nat) (f : PartState → PartState) : (s.updPart p f).out = s.out := rfl
@[simp] theorem State.updPart_quartz (s : State) (p : Nat) (f : PartState → PartState) : (s.updPart p f).quartz = s.quartz := rfl
@[simp] theorem State.updPart_boot (s : State) (p : Nat) (f : PartState → PartState) : (s.updPart p f).boot = s.boot := rfl
@[simp] theorem State.updPart_flash (s : State) (p : Nat) (f : PartState → PartState) : (s.updPart p f).flash = s.flash := rfl
@[simp] theorem State.updPart_fixed (s : State) (p : Nat) (f : PartState → PartState) : (s.updPart p f).fixed = s.fixed := rfl
@[simp] theorem State.updPart_owner (s : State) (p : Nat) (f : PartState → PartState) : (s.updPart p f).owner = s.owner := rfl
@[simp] theorem State.updPart_debugScope (s : State) (p : Nat) (f : PartState → PartState) : (s.updPart p f).debugScope = s.debugScope := rfl
@[simp] theorem State.updPart_debugPending (s : State) (p : Nat) (f : PartState → PartState) : (s.updPart p f).debugPending = s.debugPending := rfl
@[simp] theorem State.updPart_jtag (s : State) (p : Nat) (f : PartState → PartState) : (s.updPart p f).jtag = s.jtag := rfl
@[simp] theorem State.updPart_conf (s : State) (p : Nat) (f : PartState → PartState) : (s.updPart p f).conf = s.conf := rfl
@[simp] theorem State.updPart_ctrs (s : State) (p : Nat) (f : PartState → PartState) : (s.updPart p f).ctrs = s.ctrs := rfl
@[simp] theorem State.updPart_events (s : State) (p : Nat) (f : PartState → PartState) : (s.updPart p f).events = s.events := rfl
@[simp] theorem State.updPart_snare (s : State) (p : Nat) (f : PartState → PartState) : (s.updPart p f).snare = s.snare := rfl
@[simp] theorem State.updPart_ports (s : State) (p : Nat) (f : PartState → PartState) : (s.updPart p f).ports = s.ports := rfl
@[simp] theorem State.updPart_sw (s : State) (p : Nat) (f : PartState → PartState) : (s.updPart p f).sw = s.sw := rfl
@[simp] theorem State.updPart_lines (s : State) (p : Nat) (f : PartState → PartState) : (s.updPart p f).lines = s.lines := rfl
@[simp] theorem State.updPart_descs (s : State) (p : Nat) (f : PartState → PartState) : (s.updPart p f).descs = s.descs := rfl
@[simp] theorem State.updPart_nextDesc (s : State) (p : Nat) (f : PartState → PartState) : (s.updPart p f).nextDesc = s.nextDesc := rfl
@[simp] theorem State.updPart_nodeOps (s : State) (p : Nat) (f : PartState → PartState) : (s.updPart p f).nodeOps = s.nodeOps := rfl
@[simp] theorem State.updPart_syncs (s : State) (p : Nat) (f : PartState → PartState) : (s.updPart p f).syncs = s.syncs := rfl
@[simp] theorem State.updPart_waits (s : State) (p : Nat) (f : PartState → PartState) : (s.updPart p f).waits = s.waits := rfl
@[simp] theorem State.updPart_groups (s : State) (p : Nat) (f : PartState → PartState) : (s.updPart p f).groups = s.groups := rfl
@[simp] theorem State.updPart_slices (s : State) (p : Nat) (f : PartState → PartState) : (s.updPart p f).slices = s.slices := rfl
@[simp] theorem State.updPart_xfers (s : State) (p : Nat) (f : PartState → PartState) : (s.updPart p f).xfers = s.xfers := rfl
@[simp] theorem State.updPart_nextXfer (s : State) (p : Nat) (f : PartState → PartState) : (s.updPart p f).nextXfer = s.nextXfer := rfl
@[simp] theorem State.updPart_progs (s : State) (p : Nat) (f : PartState → PartState) : (s.updPart p f).progs = s.progs := rfl
@[simp] theorem State.updPart_nextLoad (s : State) (p : Nat) (f : PartState → PartState) : (s.updPart p f).nextLoad = s.nextLoad := rfl
@[simp] theorem State.updPart_invs (s : State) (p : Nat) (f : PartState → PartState) : (s.updPart p f).invs = s.invs := rfl
@[simp] theorem State.updPart_nextInv (s : State) (p : Nat) (f : PartState → PartState) : (s.updPart p f).nextInv = s.nextInv := rfl
@[simp] theorem State.updPart_cores (s : State) (p : Nat) (f : PartState → PartState) : (s.updPart p f).cores = s.cores := rfl
@[simp] theorem State.updPart_clusters (s : State) (p : Nat) (f : PartState → PartState) : (s.updPart p f).clusters = s.clusters := rfl
@[simp] theorem State.updPart_engines (s : State) (p : Nat) (f : PartState → PartState) : (s.updPart p f).engines = s.engines := rfl
@[simp] theorem State.updPart_expanders (s : State) (p : Nat) (f : PartState → PartState) : (s.updPart p f).expanders = s.expanders := rfl
@[simp] theorem State.updPart_basalt (s : State) (p : Nat) (f : PartState → PartState) : (s.updPart p f).basalt = s.basalt := rfl
@[simp] theorem State.updPart_ctxs (s : State) (p : Nat) (f : PartState → PartState) : (s.updPart p f).ctxs = s.ctxs := rfl
@[simp] theorem State.updPart_caches (s : State) (p : Nat) (f : PartState → PartState) : (s.updPart p f).caches = s.caches := rfl
@[simp] theorem State.updPart_remoteOps (s : State) (p : Nat) (f : PartState → PartState) : (s.updPart p f).remoteOps = s.remoteOps := rfl
@[simp] theorem State.updPart_nextRemote (s : State) (p : Nat) (f : PartState → PartState) : (s.updPart p f).nextRemote = s.nextRemote := rfl
@[simp] theorem State.updPart_keys (s : State) (p : Nat) (f : PartState → PartState) : (s.updPart p f).keys = s.keys := rfl
@[simp] theorem State.updPart_mirrors (s : State) (p : Nat) (f : PartState → PartState) : (s.updPart p f).mirrors = s.mirrors := rfl
@[simp] theorem State.updPart_partnerAnswer (s : State) (p : Nat) (f : PartState → PartState) : (s.updPart p f).partnerAnswer = s.partnerAnswer := rfl
@[simp] theorem State.updPart_tocsin (s : State) (p : Nat) (f : PartState → PartState) : (s.updPart p f).tocsin = s.tocsin := rfl
@[simp] theorem State.updPart_mail (s : State) (p : Nat) (f : PartState → PartState) : (s.updPart p f).mail = s.mail := rfl
@[simp] theorem State.updPart_power (s : State) (p : Nat) (f : PartState → PartState) : (s.updPart p f).power = s.power := rfl

/-! ### updPort -/

@[simp] theorem State.updPort_pending (s : State) (n : Nat) (f : LocalPortState → LocalPortState) : (s.updPort n f).pending = s.pending := rfl
@[simp] theorem State.updPort_handed (s : State) (n : Nat) (f : LocalPortState → LocalPortState) : (s.updPort n f).handed = s.handed := rfl
@[simp] theorem State.updPort_resuming (s : State) (n : Nat) (f : LocalPortState → LocalPortState) : (s.updPort n f).resuming = s.resuming := rfl
@[simp] theorem State.updPort_freeCtr (s : State) (n : Nat) (f : LocalPortState → LocalPortState) : (s.updPort n f).freeCtr = s.freeCtr := rfl
@[simp] theorem State.updPort_cycle (s : State) (n : Nat) (f : LocalPortState → LocalPortState) : (s.updPort n f).cycle = s.cycle := rfl
@[simp] theorem State.updPort_out (s : State) (n : Nat) (f : LocalPortState → LocalPortState) : (s.updPort n f).out = s.out := rfl
@[simp] theorem State.updPort_quartz (s : State) (n : Nat) (f : LocalPortState → LocalPortState) : (s.updPort n f).quartz = s.quartz := rfl
@[simp] theorem State.updPort_boot (s : State) (n : Nat) (f : LocalPortState → LocalPortState) : (s.updPort n f).boot = s.boot := rfl
@[simp] theorem State.updPort_flash (s : State) (n : Nat) (f : LocalPortState → LocalPortState) : (s.updPort n f).flash = s.flash := rfl
@[simp] theorem State.updPort_fixed (s : State) (n : Nat) (f : LocalPortState → LocalPortState) : (s.updPort n f).fixed = s.fixed := rfl
@[simp] theorem State.updPort_owner (s : State) (n : Nat) (f : LocalPortState → LocalPortState) : (s.updPort n f).owner = s.owner := rfl
@[simp] theorem State.updPort_debugScope (s : State) (n : Nat) (f : LocalPortState → LocalPortState) : (s.updPort n f).debugScope = s.debugScope := rfl
@[simp] theorem State.updPort_debugPending (s : State) (n : Nat) (f : LocalPortState → LocalPortState) : (s.updPort n f).debugPending = s.debugPending := rfl
@[simp] theorem State.updPort_jtag (s : State) (n : Nat) (f : LocalPortState → LocalPortState) : (s.updPort n f).jtag = s.jtag := rfl
@[simp] theorem State.updPort_conf (s : State) (n : Nat) (f : LocalPortState → LocalPortState) : (s.updPort n f).conf = s.conf := rfl
@[simp] theorem State.updPort_ctrs (s : State) (n : Nat) (f : LocalPortState → LocalPortState) : (s.updPort n f).ctrs = s.ctrs := rfl
@[simp] theorem State.updPort_events (s : State) (n : Nat) (f : LocalPortState → LocalPortState) : (s.updPort n f).events = s.events := rfl
@[simp] theorem State.updPort_snare (s : State) (n : Nat) (f : LocalPortState → LocalPortState) : (s.updPort n f).snare = s.snare := rfl
@[simp] theorem State.updPort_sw (s : State) (n : Nat) (f : LocalPortState → LocalPortState) : (s.updPort n f).sw = s.sw := rfl
@[simp] theorem State.updPort_lines (s : State) (n : Nat) (f : LocalPortState → LocalPortState) : (s.updPort n f).lines = s.lines := rfl
@[simp] theorem State.updPort_descs (s : State) (n : Nat) (f : LocalPortState → LocalPortState) : (s.updPort n f).descs = s.descs := rfl
@[simp] theorem State.updPort_nextDesc (s : State) (n : Nat) (f : LocalPortState → LocalPortState) : (s.updPort n f).nextDesc = s.nextDesc := rfl
@[simp] theorem State.updPort_nodeOps (s : State) (n : Nat) (f : LocalPortState → LocalPortState) : (s.updPort n f).nodeOps = s.nodeOps := rfl
@[simp] theorem State.updPort_syncs (s : State) (n : Nat) (f : LocalPortState → LocalPortState) : (s.updPort n f).syncs = s.syncs := rfl
@[simp] theorem State.updPort_waits (s : State) (n : Nat) (f : LocalPortState → LocalPortState) : (s.updPort n f).waits = s.waits := rfl
@[simp] theorem State.updPort_parts (s : State) (n : Nat) (f : LocalPortState → LocalPortState) : (s.updPort n f).parts = s.parts := rfl
@[simp] theorem State.updPort_groups (s : State) (n : Nat) (f : LocalPortState → LocalPortState) : (s.updPort n f).groups = s.groups := rfl
@[simp] theorem State.updPort_slices (s : State) (n : Nat) (f : LocalPortState → LocalPortState) : (s.updPort n f).slices = s.slices := rfl
@[simp] theorem State.updPort_xfers (s : State) (n : Nat) (f : LocalPortState → LocalPortState) : (s.updPort n f).xfers = s.xfers := rfl
@[simp] theorem State.updPort_nextXfer (s : State) (n : Nat) (f : LocalPortState → LocalPortState) : (s.updPort n f).nextXfer = s.nextXfer := rfl
@[simp] theorem State.updPort_progs (s : State) (n : Nat) (f : LocalPortState → LocalPortState) : (s.updPort n f).progs = s.progs := rfl
@[simp] theorem State.updPort_nextLoad (s : State) (n : Nat) (f : LocalPortState → LocalPortState) : (s.updPort n f).nextLoad = s.nextLoad := rfl
@[simp] theorem State.updPort_invs (s : State) (n : Nat) (f : LocalPortState → LocalPortState) : (s.updPort n f).invs = s.invs := rfl
@[simp] theorem State.updPort_nextInv (s : State) (n : Nat) (f : LocalPortState → LocalPortState) : (s.updPort n f).nextInv = s.nextInv := rfl
@[simp] theorem State.updPort_cores (s : State) (n : Nat) (f : LocalPortState → LocalPortState) : (s.updPort n f).cores = s.cores := rfl
@[simp] theorem State.updPort_clusters (s : State) (n : Nat) (f : LocalPortState → LocalPortState) : (s.updPort n f).clusters = s.clusters := rfl
@[simp] theorem State.updPort_engines (s : State) (n : Nat) (f : LocalPortState → LocalPortState) : (s.updPort n f).engines = s.engines := rfl
@[simp] theorem State.updPort_expanders (s : State) (n : Nat) (f : LocalPortState → LocalPortState) : (s.updPort n f).expanders = s.expanders := rfl
@[simp] theorem State.updPort_basalt (s : State) (n : Nat) (f : LocalPortState → LocalPortState) : (s.updPort n f).basalt = s.basalt := rfl
@[simp] theorem State.updPort_ctxs (s : State) (n : Nat) (f : LocalPortState → LocalPortState) : (s.updPort n f).ctxs = s.ctxs := rfl
@[simp] theorem State.updPort_caches (s : State) (n : Nat) (f : LocalPortState → LocalPortState) : (s.updPort n f).caches = s.caches := rfl
@[simp] theorem State.updPort_remoteOps (s : State) (n : Nat) (f : LocalPortState → LocalPortState) : (s.updPort n f).remoteOps = s.remoteOps := rfl
@[simp] theorem State.updPort_nextRemote (s : State) (n : Nat) (f : LocalPortState → LocalPortState) : (s.updPort n f).nextRemote = s.nextRemote := rfl
@[simp] theorem State.updPort_keys (s : State) (n : Nat) (f : LocalPortState → LocalPortState) : (s.updPort n f).keys = s.keys := rfl
@[simp] theorem State.updPort_mirrors (s : State) (n : Nat) (f : LocalPortState → LocalPortState) : (s.updPort n f).mirrors = s.mirrors := rfl
@[simp] theorem State.updPort_partnerAnswer (s : State) (n : Nat) (f : LocalPortState → LocalPortState) : (s.updPort n f).partnerAnswer = s.partnerAnswer := rfl
@[simp] theorem State.updPort_tocsin (s : State) (n : Nat) (f : LocalPortState → LocalPortState) : (s.updPort n f).tocsin = s.tocsin := rfl
@[simp] theorem State.updPort_mail (s : State) (n : Nat) (f : LocalPortState → LocalPortState) : (s.updPort n f).mail = s.mail := rfl
@[simp] theorem State.updPort_power (s : State) (n : Nat) (f : LocalPortState → LocalPortState) : (s.updPort n f).power = s.power := rfl

/-! ### updLine -/

@[simp] theorem State.updLine_pending (s : State) (m : Nat) (f : LinePortState → LinePortState) : (s.updLine m f).pending = s.pending := rfl
@[simp] theorem State.updLine_handed (s : State) (m : Nat) (f : LinePortState → LinePortState) : (s.updLine m f).handed = s.handed := rfl
@[simp] theorem State.updLine_resuming (s : State) (m : Nat) (f : LinePortState → LinePortState) : (s.updLine m f).resuming = s.resuming := rfl
@[simp] theorem State.updLine_freeCtr (s : State) (m : Nat) (f : LinePortState → LinePortState) : (s.updLine m f).freeCtr = s.freeCtr := rfl
@[simp] theorem State.updLine_cycle (s : State) (m : Nat) (f : LinePortState → LinePortState) : (s.updLine m f).cycle = s.cycle := rfl
@[simp] theorem State.updLine_out (s : State) (m : Nat) (f : LinePortState → LinePortState) : (s.updLine m f).out = s.out := rfl
@[simp] theorem State.updLine_quartz (s : State) (m : Nat) (f : LinePortState → LinePortState) : (s.updLine m f).quartz = s.quartz := rfl
@[simp] theorem State.updLine_boot (s : State) (m : Nat) (f : LinePortState → LinePortState) : (s.updLine m f).boot = s.boot := rfl
@[simp] theorem State.updLine_flash (s : State) (m : Nat) (f : LinePortState → LinePortState) : (s.updLine m f).flash = s.flash := rfl
@[simp] theorem State.updLine_fixed (s : State) (m : Nat) (f : LinePortState → LinePortState) : (s.updLine m f).fixed = s.fixed := rfl
@[simp] theorem State.updLine_owner (s : State) (m : Nat) (f : LinePortState → LinePortState) : (s.updLine m f).owner = s.owner := rfl
@[simp] theorem State.updLine_debugScope (s : State) (m : Nat) (f : LinePortState → LinePortState) : (s.updLine m f).debugScope = s.debugScope := rfl
@[simp] theorem State.updLine_debugPending (s : State) (m : Nat) (f : LinePortState → LinePortState) : (s.updLine m f).debugPending = s.debugPending := rfl
@[simp] theorem State.updLine_jtag (s : State) (m : Nat) (f : LinePortState → LinePortState) : (s.updLine m f).jtag = s.jtag := rfl
@[simp] theorem State.updLine_conf (s : State) (m : Nat) (f : LinePortState → LinePortState) : (s.updLine m f).conf = s.conf := rfl
@[simp] theorem State.updLine_ctrs (s : State) (m : Nat) (f : LinePortState → LinePortState) : (s.updLine m f).ctrs = s.ctrs := rfl
@[simp] theorem State.updLine_events (s : State) (m : Nat) (f : LinePortState → LinePortState) : (s.updLine m f).events = s.events := rfl
@[simp] theorem State.updLine_snare (s : State) (m : Nat) (f : LinePortState → LinePortState) : (s.updLine m f).snare = s.snare := rfl
@[simp] theorem State.updLine_ports (s : State) (m : Nat) (f : LinePortState → LinePortState) : (s.updLine m f).ports = s.ports := rfl
@[simp] theorem State.updLine_sw (s : State) (m : Nat) (f : LinePortState → LinePortState) : (s.updLine m f).sw = s.sw := rfl
@[simp] theorem State.updLine_descs (s : State) (m : Nat) (f : LinePortState → LinePortState) : (s.updLine m f).descs = s.descs := rfl
@[simp] theorem State.updLine_nextDesc (s : State) (m : Nat) (f : LinePortState → LinePortState) : (s.updLine m f).nextDesc = s.nextDesc := rfl
@[simp] theorem State.updLine_nodeOps (s : State) (m : Nat) (f : LinePortState → LinePortState) : (s.updLine m f).nodeOps = s.nodeOps := rfl
@[simp] theorem State.updLine_syncs (s : State) (m : Nat) (f : LinePortState → LinePortState) : (s.updLine m f).syncs = s.syncs := rfl
@[simp] theorem State.updLine_waits (s : State) (m : Nat) (f : LinePortState → LinePortState) : (s.updLine m f).waits = s.waits := rfl
@[simp] theorem State.updLine_parts (s : State) (m : Nat) (f : LinePortState → LinePortState) : (s.updLine m f).parts = s.parts := rfl
@[simp] theorem State.updLine_groups (s : State) (m : Nat) (f : LinePortState → LinePortState) : (s.updLine m f).groups = s.groups := rfl
@[simp] theorem State.updLine_slices (s : State) (m : Nat) (f : LinePortState → LinePortState) : (s.updLine m f).slices = s.slices := rfl
@[simp] theorem State.updLine_xfers (s : State) (m : Nat) (f : LinePortState → LinePortState) : (s.updLine m f).xfers = s.xfers := rfl
@[simp] theorem State.updLine_nextXfer (s : State) (m : Nat) (f : LinePortState → LinePortState) : (s.updLine m f).nextXfer = s.nextXfer := rfl
@[simp] theorem State.updLine_progs (s : State) (m : Nat) (f : LinePortState → LinePortState) : (s.updLine m f).progs = s.progs := rfl
@[simp] theorem State.updLine_nextLoad (s : State) (m : Nat) (f : LinePortState → LinePortState) : (s.updLine m f).nextLoad = s.nextLoad := rfl
@[simp] theorem State.updLine_invs (s : State) (m : Nat) (f : LinePortState → LinePortState) : (s.updLine m f).invs = s.invs := rfl
@[simp] theorem State.updLine_nextInv (s : State) (m : Nat) (f : LinePortState → LinePortState) : (s.updLine m f).nextInv = s.nextInv := rfl
@[simp] theorem State.updLine_cores (s : State) (m : Nat) (f : LinePortState → LinePortState) : (s.updLine m f).cores = s.cores := rfl
@[simp] theorem State.updLine_clusters (s : State) (m : Nat) (f : LinePortState → LinePortState) : (s.updLine m f).clusters = s.clusters := rfl
@[simp] theorem State.updLine_engines (s : State) (m : Nat) (f : LinePortState → LinePortState) : (s.updLine m f).engines = s.engines := rfl
@[simp] theorem State.updLine_expanders (s : State) (m : Nat) (f : LinePortState → LinePortState) : (s.updLine m f).expanders = s.expanders := rfl
@[simp] theorem State.updLine_basalt (s : State) (m : Nat) (f : LinePortState → LinePortState) : (s.updLine m f).basalt = s.basalt := rfl
@[simp] theorem State.updLine_ctxs (s : State) (m : Nat) (f : LinePortState → LinePortState) : (s.updLine m f).ctxs = s.ctxs := rfl
@[simp] theorem State.updLine_caches (s : State) (m : Nat) (f : LinePortState → LinePortState) : (s.updLine m f).caches = s.caches := rfl
@[simp] theorem State.updLine_remoteOps (s : State) (m : Nat) (f : LinePortState → LinePortState) : (s.updLine m f).remoteOps = s.remoteOps := rfl
@[simp] theorem State.updLine_nextRemote (s : State) (m : Nat) (f : LinePortState → LinePortState) : (s.updLine m f).nextRemote = s.nextRemote := rfl
@[simp] theorem State.updLine_keys (s : State) (m : Nat) (f : LinePortState → LinePortState) : (s.updLine m f).keys = s.keys := rfl
@[simp] theorem State.updLine_mirrors (s : State) (m : Nat) (f : LinePortState → LinePortState) : (s.updLine m f).mirrors = s.mirrors := rfl
@[simp] theorem State.updLine_partnerAnswer (s : State) (m : Nat) (f : LinePortState → LinePortState) : (s.updLine m f).partnerAnswer = s.partnerAnswer := rfl
@[simp] theorem State.updLine_tocsin (s : State) (m : Nat) (f : LinePortState → LinePortState) : (s.updLine m f).tocsin = s.tocsin := rfl
@[simp] theorem State.updLine_mail (s : State) (m : Nat) (f : LinePortState → LinePortState) : (s.updLine m f).mail = s.mail := rfl
@[simp] theorem State.updLine_power (s : State) (m : Nat) (f : LinePortState → LinePortState) : (s.updLine m f).power = s.power := rfl

/-! ### updCluster -/

@[simp] theorem State.updCluster_pending (s : State) (c : Nat) (f : Cluster → Cluster) : (s.updCluster c f).pending = s.pending := rfl
@[simp] theorem State.updCluster_handed (s : State) (c : Nat) (f : Cluster → Cluster) : (s.updCluster c f).handed = s.handed := rfl
@[simp] theorem State.updCluster_resuming (s : State) (c : Nat) (f : Cluster → Cluster) : (s.updCluster c f).resuming = s.resuming := rfl
@[simp] theorem State.updCluster_freeCtr (s : State) (c : Nat) (f : Cluster → Cluster) : (s.updCluster c f).freeCtr = s.freeCtr := rfl
@[simp] theorem State.updCluster_cycle (s : State) (c : Nat) (f : Cluster → Cluster) : (s.updCluster c f).cycle = s.cycle := rfl
@[simp] theorem State.updCluster_out (s : State) (c : Nat) (f : Cluster → Cluster) : (s.updCluster c f).out = s.out := rfl
@[simp] theorem State.updCluster_quartz (s : State) (c : Nat) (f : Cluster → Cluster) : (s.updCluster c f).quartz = s.quartz := rfl
@[simp] theorem State.updCluster_boot (s : State) (c : Nat) (f : Cluster → Cluster) : (s.updCluster c f).boot = s.boot := rfl
@[simp] theorem State.updCluster_flash (s : State) (c : Nat) (f : Cluster → Cluster) : (s.updCluster c f).flash = s.flash := rfl
@[simp] theorem State.updCluster_fixed (s : State) (c : Nat) (f : Cluster → Cluster) : (s.updCluster c f).fixed = s.fixed := rfl
@[simp] theorem State.updCluster_owner (s : State) (c : Nat) (f : Cluster → Cluster) : (s.updCluster c f).owner = s.owner := rfl
@[simp] theorem State.updCluster_debugScope (s : State) (c : Nat) (f : Cluster → Cluster) : (s.updCluster c f).debugScope = s.debugScope := rfl
@[simp] theorem State.updCluster_debugPending (s : State) (c : Nat) (f : Cluster → Cluster) : (s.updCluster c f).debugPending = s.debugPending := rfl
@[simp] theorem State.updCluster_jtag (s : State) (c : Nat) (f : Cluster → Cluster) : (s.updCluster c f).jtag = s.jtag := rfl
@[simp] theorem State.updCluster_conf (s : State) (c : Nat) (f : Cluster → Cluster) : (s.updCluster c f).conf = s.conf := rfl
@[simp] theorem State.updCluster_ctrs (s : State) (c : Nat) (f : Cluster → Cluster) : (s.updCluster c f).ctrs = s.ctrs := rfl
@[simp] theorem State.updCluster_events (s : State) (c : Nat) (f : Cluster → Cluster) : (s.updCluster c f).events = s.events := rfl
@[simp] theorem State.updCluster_snare (s : State) (c : Nat) (f : Cluster → Cluster) : (s.updCluster c f).snare = s.snare := rfl
@[simp] theorem State.updCluster_ports (s : State) (c : Nat) (f : Cluster → Cluster) : (s.updCluster c f).ports = s.ports := rfl
@[simp] theorem State.updCluster_sw (s : State) (c : Nat) (f : Cluster → Cluster) : (s.updCluster c f).sw = s.sw := rfl
@[simp] theorem State.updCluster_lines (s : State) (c : Nat) (f : Cluster → Cluster) : (s.updCluster c f).lines = s.lines := rfl
@[simp] theorem State.updCluster_descs (s : State) (c : Nat) (f : Cluster → Cluster) : (s.updCluster c f).descs = s.descs := rfl
@[simp] theorem State.updCluster_nextDesc (s : State) (c : Nat) (f : Cluster → Cluster) : (s.updCluster c f).nextDesc = s.nextDesc := rfl
@[simp] theorem State.updCluster_nodeOps (s : State) (c : Nat) (f : Cluster → Cluster) : (s.updCluster c f).nodeOps = s.nodeOps := rfl
@[simp] theorem State.updCluster_syncs (s : State) (c : Nat) (f : Cluster → Cluster) : (s.updCluster c f).syncs = s.syncs := rfl
@[simp] theorem State.updCluster_waits (s : State) (c : Nat) (f : Cluster → Cluster) : (s.updCluster c f).waits = s.waits := rfl
@[simp] theorem State.updCluster_parts (s : State) (c : Nat) (f : Cluster → Cluster) : (s.updCluster c f).parts = s.parts := rfl
@[simp] theorem State.updCluster_groups (s : State) (c : Nat) (f : Cluster → Cluster) : (s.updCluster c f).groups = s.groups := rfl
@[simp] theorem State.updCluster_slices (s : State) (c : Nat) (f : Cluster → Cluster) : (s.updCluster c f).slices = s.slices := rfl
@[simp] theorem State.updCluster_xfers (s : State) (c : Nat) (f : Cluster → Cluster) : (s.updCluster c f).xfers = s.xfers := rfl
@[simp] theorem State.updCluster_nextXfer (s : State) (c : Nat) (f : Cluster → Cluster) : (s.updCluster c f).nextXfer = s.nextXfer := rfl
@[simp] theorem State.updCluster_progs (s : State) (c : Nat) (f : Cluster → Cluster) : (s.updCluster c f).progs = s.progs := rfl
@[simp] theorem State.updCluster_nextLoad (s : State) (c : Nat) (f : Cluster → Cluster) : (s.updCluster c f).nextLoad = s.nextLoad := rfl
@[simp] theorem State.updCluster_invs (s : State) (c : Nat) (f : Cluster → Cluster) : (s.updCluster c f).invs = s.invs := rfl
@[simp] theorem State.updCluster_nextInv (s : State) (c : Nat) (f : Cluster → Cluster) : (s.updCluster c f).nextInv = s.nextInv := rfl
@[simp] theorem State.updCluster_cores (s : State) (c : Nat) (f : Cluster → Cluster) : (s.updCluster c f).cores = s.cores := rfl
@[simp] theorem State.updCluster_engines (s : State) (c : Nat) (f : Cluster → Cluster) : (s.updCluster c f).engines = s.engines := rfl
@[simp] theorem State.updCluster_expanders (s : State) (c : Nat) (f : Cluster → Cluster) : (s.updCluster c f).expanders = s.expanders := rfl
@[simp] theorem State.updCluster_basalt (s : State) (c : Nat) (f : Cluster → Cluster) : (s.updCluster c f).basalt = s.basalt := rfl
@[simp] theorem State.updCluster_ctxs (s : State) (c : Nat) (f : Cluster → Cluster) : (s.updCluster c f).ctxs = s.ctxs := rfl
@[simp] theorem State.updCluster_caches (s : State) (c : Nat) (f : Cluster → Cluster) : (s.updCluster c f).caches = s.caches := rfl
@[simp] theorem State.updCluster_remoteOps (s : State) (c : Nat) (f : Cluster → Cluster) : (s.updCluster c f).remoteOps = s.remoteOps := rfl
@[simp] theorem State.updCluster_nextRemote (s : State) (c : Nat) (f : Cluster → Cluster) : (s.updCluster c f).nextRemote = s.nextRemote := rfl
@[simp] theorem State.updCluster_keys (s : State) (c : Nat) (f : Cluster → Cluster) : (s.updCluster c f).keys = s.keys := rfl
@[simp] theorem State.updCluster_mirrors (s : State) (c : Nat) (f : Cluster → Cluster) : (s.updCluster c f).mirrors = s.mirrors := rfl
@[simp] theorem State.updCluster_partnerAnswer (s : State) (c : Nat) (f : Cluster → Cluster) : (s.updCluster c f).partnerAnswer = s.partnerAnswer := rfl
@[simp] theorem State.updCluster_tocsin (s : State) (c : Nat) (f : Cluster → Cluster) : (s.updCluster c f).tocsin = s.tocsin := rfl
@[simp] theorem State.updCluster_mail (s : State) (c : Nat) (f : Cluster → Cluster) : (s.updCluster c f).mail = s.mail := rfl
@[simp] theorem State.updCluster_power (s : State) (c : Nat) (f : Cluster → Cluster) : (s.updCluster c f).power = s.power := rfl

/-! ### updCore -/

@[simp] theorem State.updCore_pending (s : State) (k : Nat) (f : Core → Core) : (s.updCore k f).pending = s.pending := rfl
@[simp] theorem State.updCore_handed (s : State) (k : Nat) (f : Core → Core) : (s.updCore k f).handed = s.handed := rfl
@[simp] theorem State.updCore_resuming (s : State) (k : Nat) (f : Core → Core) : (s.updCore k f).resuming = s.resuming := rfl
@[simp] theorem State.updCore_freeCtr (s : State) (k : Nat) (f : Core → Core) : (s.updCore k f).freeCtr = s.freeCtr := rfl
@[simp] theorem State.updCore_cycle (s : State) (k : Nat) (f : Core → Core) : (s.updCore k f).cycle = s.cycle := rfl
@[simp] theorem State.updCore_out (s : State) (k : Nat) (f : Core → Core) : (s.updCore k f).out = s.out := rfl
@[simp] theorem State.updCore_quartz (s : State) (k : Nat) (f : Core → Core) : (s.updCore k f).quartz = s.quartz := rfl
@[simp] theorem State.updCore_boot (s : State) (k : Nat) (f : Core → Core) : (s.updCore k f).boot = s.boot := rfl
@[simp] theorem State.updCore_flash (s : State) (k : Nat) (f : Core → Core) : (s.updCore k f).flash = s.flash := rfl
@[simp] theorem State.updCore_fixed (s : State) (k : Nat) (f : Core → Core) : (s.updCore k f).fixed = s.fixed := rfl
@[simp] theorem State.updCore_owner (s : State) (k : Nat) (f : Core → Core) : (s.updCore k f).owner = s.owner := rfl
@[simp] theorem State.updCore_debugScope (s : State) (k : Nat) (f : Core → Core) : (s.updCore k f).debugScope = s.debugScope := rfl
@[simp] theorem State.updCore_debugPending (s : State) (k : Nat) (f : Core → Core) : (s.updCore k f).debugPending = s.debugPending := rfl
@[simp] theorem State.updCore_jtag (s : State) (k : Nat) (f : Core → Core) : (s.updCore k f).jtag = s.jtag := rfl
@[simp] theorem State.updCore_conf (s : State) (k : Nat) (f : Core → Core) : (s.updCore k f).conf = s.conf := rfl
@[simp] theorem State.updCore_ctrs (s : State) (k : Nat) (f : Core → Core) : (s.updCore k f).ctrs = s.ctrs := rfl
@[simp] theorem State.updCore_events (s : State) (k : Nat) (f : Core → Core) : (s.updCore k f).events = s.events := rfl
@[simp] theorem State.updCore_snare (s : State) (k : Nat) (f : Core → Core) : (s.updCore k f).snare = s.snare := rfl
@[simp] theorem State.updCore_ports (s : State) (k : Nat) (f : Core → Core) : (s.updCore k f).ports = s.ports := rfl
@[simp] theorem State.updCore_sw (s : State) (k : Nat) (f : Core → Core) : (s.updCore k f).sw = s.sw := rfl
@[simp] theorem State.updCore_lines (s : State) (k : Nat) (f : Core → Core) : (s.updCore k f).lines = s.lines := rfl
@[simp] theorem State.updCore_descs (s : State) (k : Nat) (f : Core → Core) : (s.updCore k f).descs = s.descs := rfl
@[simp] theorem State.updCore_nextDesc (s : State) (k : Nat) (f : Core → Core) : (s.updCore k f).nextDesc = s.nextDesc := rfl
@[simp] theorem State.updCore_nodeOps (s : State) (k : Nat) (f : Core → Core) : (s.updCore k f).nodeOps = s.nodeOps := rfl
@[simp] theorem State.updCore_syncs (s : State) (k : Nat) (f : Core → Core) : (s.updCore k f).syncs = s.syncs := rfl
@[simp] theorem State.updCore_waits (s : State) (k : Nat) (f : Core → Core) : (s.updCore k f).waits = s.waits := rfl
@[simp] theorem State.updCore_parts (s : State) (k : Nat) (f : Core → Core) : (s.updCore k f).parts = s.parts := rfl
@[simp] theorem State.updCore_groups (s : State) (k : Nat) (f : Core → Core) : (s.updCore k f).groups = s.groups := rfl
@[simp] theorem State.updCore_slices (s : State) (k : Nat) (f : Core → Core) : (s.updCore k f).slices = s.slices := rfl
@[simp] theorem State.updCore_xfers (s : State) (k : Nat) (f : Core → Core) : (s.updCore k f).xfers = s.xfers := rfl
@[simp] theorem State.updCore_nextXfer (s : State) (k : Nat) (f : Core → Core) : (s.updCore k f).nextXfer = s.nextXfer := rfl
@[simp] theorem State.updCore_progs (s : State) (k : Nat) (f : Core → Core) : (s.updCore k f).progs = s.progs := rfl
@[simp] theorem State.updCore_nextLoad (s : State) (k : Nat) (f : Core → Core) : (s.updCore k f).nextLoad = s.nextLoad := rfl
@[simp] theorem State.updCore_invs (s : State) (k : Nat) (f : Core → Core) : (s.updCore k f).invs = s.invs := rfl
@[simp] theorem State.updCore_nextInv (s : State) (k : Nat) (f : Core → Core) : (s.updCore k f).nextInv = s.nextInv := rfl
@[simp] theorem State.updCore_clusters (s : State) (k : Nat) (f : Core → Core) : (s.updCore k f).clusters = s.clusters := rfl
@[simp] theorem State.updCore_engines (s : State) (k : Nat) (f : Core → Core) : (s.updCore k f).engines = s.engines := rfl
@[simp] theorem State.updCore_expanders (s : State) (k : Nat) (f : Core → Core) : (s.updCore k f).expanders = s.expanders := rfl
@[simp] theorem State.updCore_basalt (s : State) (k : Nat) (f : Core → Core) : (s.updCore k f).basalt = s.basalt := rfl
@[simp] theorem State.updCore_ctxs (s : State) (k : Nat) (f : Core → Core) : (s.updCore k f).ctxs = s.ctxs := rfl
@[simp] theorem State.updCore_caches (s : State) (k : Nat) (f : Core → Core) : (s.updCore k f).caches = s.caches := rfl
@[simp] theorem State.updCore_remoteOps (s : State) (k : Nat) (f : Core → Core) : (s.updCore k f).remoteOps = s.remoteOps := rfl
@[simp] theorem State.updCore_nextRemote (s : State) (k : Nat) (f : Core → Core) : (s.updCore k f).nextRemote = s.nextRemote := rfl
@[simp] theorem State.updCore_keys (s : State) (k : Nat) (f : Core → Core) : (s.updCore k f).keys = s.keys := rfl
@[simp] theorem State.updCore_mirrors (s : State) (k : Nat) (f : Core → Core) : (s.updCore k f).mirrors = s.mirrors := rfl
@[simp] theorem State.updCore_partnerAnswer (s : State) (k : Nat) (f : Core → Core) : (s.updCore k f).partnerAnswer = s.partnerAnswer := rfl
@[simp] theorem State.updCore_tocsin (s : State) (k : Nat) (f : Core → Core) : (s.updCore k f).tocsin = s.tocsin := rfl
@[simp] theorem State.updCore_mail (s : State) (k : Nat) (f : Core → Core) : (s.updCore k f).mail = s.mail := rfl
@[simp] theorem State.updCore_power (s : State) (k : Nat) (f : Core → Core) : (s.updCore k f).power = s.power := rfl

/-! ### updEngine -/

@[simp] theorem State.updEngine_pending (s : State) (e : Nat) (f : Engine → Engine) : (s.updEngine e f).pending = s.pending := rfl
@[simp] theorem State.updEngine_handed (s : State) (e : Nat) (f : Engine → Engine) : (s.updEngine e f).handed = s.handed := rfl
@[simp] theorem State.updEngine_resuming (s : State) (e : Nat) (f : Engine → Engine) : (s.updEngine e f).resuming = s.resuming := rfl
@[simp] theorem State.updEngine_freeCtr (s : State) (e : Nat) (f : Engine → Engine) : (s.updEngine e f).freeCtr = s.freeCtr := rfl
@[simp] theorem State.updEngine_cycle (s : State) (e : Nat) (f : Engine → Engine) : (s.updEngine e f).cycle = s.cycle := rfl
@[simp] theorem State.updEngine_out (s : State) (e : Nat) (f : Engine → Engine) : (s.updEngine e f).out = s.out := rfl
@[simp] theorem State.updEngine_quartz (s : State) (e : Nat) (f : Engine → Engine) : (s.updEngine e f).quartz = s.quartz := rfl
@[simp] theorem State.updEngine_boot (s : State) (e : Nat) (f : Engine → Engine) : (s.updEngine e f).boot = s.boot := rfl
@[simp] theorem State.updEngine_flash (s : State) (e : Nat) (f : Engine → Engine) : (s.updEngine e f).flash = s.flash := rfl
@[simp] theorem State.updEngine_fixed (s : State) (e : Nat) (f : Engine → Engine) : (s.updEngine e f).fixed = s.fixed := rfl
@[simp] theorem State.updEngine_owner (s : State) (e : Nat) (f : Engine → Engine) : (s.updEngine e f).owner = s.owner := rfl
@[simp] theorem State.updEngine_debugScope (s : State) (e : Nat) (f : Engine → Engine) : (s.updEngine e f).debugScope = s.debugScope := rfl
@[simp] theorem State.updEngine_debugPending (s : State) (e : Nat) (f : Engine → Engine) : (s.updEngine e f).debugPending = s.debugPending := rfl
@[simp] theorem State.updEngine_jtag (s : State) (e : Nat) (f : Engine → Engine) : (s.updEngine e f).jtag = s.jtag := rfl
@[simp] theorem State.updEngine_conf (s : State) (e : Nat) (f : Engine → Engine) : (s.updEngine e f).conf = s.conf := rfl
@[simp] theorem State.updEngine_ctrs (s : State) (e : Nat) (f : Engine → Engine) : (s.updEngine e f).ctrs = s.ctrs := rfl
@[simp] theorem State.updEngine_events (s : State) (e : Nat) (f : Engine → Engine) : (s.updEngine e f).events = s.events := rfl
@[simp] theorem State.updEngine_snare (s : State) (e : Nat) (f : Engine → Engine) : (s.updEngine e f).snare = s.snare := rfl
@[simp] theorem State.updEngine_ports (s : State) (e : Nat) (f : Engine → Engine) : (s.updEngine e f).ports = s.ports := rfl
@[simp] theorem State.updEngine_sw (s : State) (e : Nat) (f : Engine → Engine) : (s.updEngine e f).sw = s.sw := rfl
@[simp] theorem State.updEngine_lines (s : State) (e : Nat) (f : Engine → Engine) : (s.updEngine e f).lines = s.lines := rfl
@[simp] theorem State.updEngine_descs (s : State) (e : Nat) (f : Engine → Engine) : (s.updEngine e f).descs = s.descs := rfl
@[simp] theorem State.updEngine_nextDesc (s : State) (e : Nat) (f : Engine → Engine) : (s.updEngine e f).nextDesc = s.nextDesc := rfl
@[simp] theorem State.updEngine_nodeOps (s : State) (e : Nat) (f : Engine → Engine) : (s.updEngine e f).nodeOps = s.nodeOps := rfl
@[simp] theorem State.updEngine_syncs (s : State) (e : Nat) (f : Engine → Engine) : (s.updEngine e f).syncs = s.syncs := rfl
@[simp] theorem State.updEngine_waits (s : State) (e : Nat) (f : Engine → Engine) : (s.updEngine e f).waits = s.waits := rfl
@[simp] theorem State.updEngine_parts (s : State) (e : Nat) (f : Engine → Engine) : (s.updEngine e f).parts = s.parts := rfl
@[simp] theorem State.updEngine_groups (s : State) (e : Nat) (f : Engine → Engine) : (s.updEngine e f).groups = s.groups := rfl
@[simp] theorem State.updEngine_slices (s : State) (e : Nat) (f : Engine → Engine) : (s.updEngine e f).slices = s.slices := rfl
@[simp] theorem State.updEngine_xfers (s : State) (e : Nat) (f : Engine → Engine) : (s.updEngine e f).xfers = s.xfers := rfl
@[simp] theorem State.updEngine_nextXfer (s : State) (e : Nat) (f : Engine → Engine) : (s.updEngine e f).nextXfer = s.nextXfer := rfl
@[simp] theorem State.updEngine_progs (s : State) (e : Nat) (f : Engine → Engine) : (s.updEngine e f).progs = s.progs := rfl
@[simp] theorem State.updEngine_nextLoad (s : State) (e : Nat) (f : Engine → Engine) : (s.updEngine e f).nextLoad = s.nextLoad := rfl
@[simp] theorem State.updEngine_invs (s : State) (e : Nat) (f : Engine → Engine) : (s.updEngine e f).invs = s.invs := rfl
@[simp] theorem State.updEngine_nextInv (s : State) (e : Nat) (f : Engine → Engine) : (s.updEngine e f).nextInv = s.nextInv := rfl
@[simp] theorem State.updEngine_cores (s : State) (e : Nat) (f : Engine → Engine) : (s.updEngine e f).cores = s.cores := rfl
@[simp] theorem State.updEngine_clusters (s : State) (e : Nat) (f : Engine → Engine) : (s.updEngine e f).clusters = s.clusters := rfl
@[simp] theorem State.updEngine_expanders (s : State) (e : Nat) (f : Engine → Engine) : (s.updEngine e f).expanders = s.expanders := rfl
@[simp] theorem State.updEngine_basalt (s : State) (e : Nat) (f : Engine → Engine) : (s.updEngine e f).basalt = s.basalt := rfl
@[simp] theorem State.updEngine_ctxs (s : State) (e : Nat) (f : Engine → Engine) : (s.updEngine e f).ctxs = s.ctxs := rfl
@[simp] theorem State.updEngine_caches (s : State) (e : Nat) (f : Engine → Engine) : (s.updEngine e f).caches = s.caches := rfl
@[simp] theorem State.updEngine_remoteOps (s : State) (e : Nat) (f : Engine → Engine) : (s.updEngine e f).remoteOps = s.remoteOps := rfl
@[simp] theorem State.updEngine_nextRemote (s : State) (e : Nat) (f : Engine → Engine) : (s.updEngine e f).nextRemote = s.nextRemote := rfl
@[simp] theorem State.updEngine_keys (s : State) (e : Nat) (f : Engine → Engine) : (s.updEngine e f).keys = s.keys := rfl
@[simp] theorem State.updEngine_mirrors (s : State) (e : Nat) (f : Engine → Engine) : (s.updEngine e f).mirrors = s.mirrors := rfl
@[simp] theorem State.updEngine_partnerAnswer (s : State) (e : Nat) (f : Engine → Engine) : (s.updEngine e f).partnerAnswer = s.partnerAnswer := rfl
@[simp] theorem State.updEngine_tocsin (s : State) (e : Nat) (f : Engine → Engine) : (s.updEngine e f).tocsin = s.tocsin := rfl
@[simp] theorem State.updEngine_mail (s : State) (e : Nat) (f : Engine → Engine) : (s.updEngine e f).mail = s.mail := rfl
@[simp] theorem State.updEngine_power (s : State) (e : Nat) (f : Engine → Engine) : (s.updEngine e f).power = s.power := rfl

/-! ### updSlice -/

@[simp] theorem State.updSlice_pending (s : State) (k : Nat) (f : Slice → Slice) : (s.updSlice k f).pending = s.pending := rfl
@[simp] theorem State.updSlice_handed (s : State) (k : Nat) (f : Slice → Slice) : (s.updSlice k f).handed = s.handed := rfl
@[simp] theorem State.updSlice_resuming (s : State) (k : Nat) (f : Slice → Slice) : (s.updSlice k f).resuming = s.resuming := rfl
@[simp] theorem State.updSlice_freeCtr (s : State) (k : Nat) (f : Slice → Slice) : (s.updSlice k f).freeCtr = s.freeCtr := rfl
@[simp] theorem State.updSlice_cycle (s : State) (k : Nat) (f : Slice → Slice) : (s.updSlice k f).cycle = s.cycle := rfl
@[simp] theorem State.updSlice_out (s : State) (k : Nat) (f : Slice → Slice) : (s.updSlice k f).out = s.out := rfl
@[simp] theorem State.updSlice_quartz (s : State) (k : Nat) (f : Slice → Slice) : (s.updSlice k f).quartz = s.quartz := rfl
@[simp] theorem State.updSlice_boot (s : State) (k : Nat) (f : Slice → Slice) : (s.updSlice k f).boot = s.boot := rfl
@[simp] theorem State.updSlice_flash (s : State) (k : Nat) (f : Slice → Slice) : (s.updSlice k f).flash = s.flash := rfl
@[simp] theorem State.updSlice_fixed (s : State) (k : Nat) (f : Slice → Slice) : (s.updSlice k f).fixed = s.fixed := rfl
@[simp] theorem State.updSlice_owner (s : State) (k : Nat) (f : Slice → Slice) : (s.updSlice k f).owner = s.owner := rfl
@[simp] theorem State.updSlice_debugScope (s : State) (k : Nat) (f : Slice → Slice) : (s.updSlice k f).debugScope = s.debugScope := rfl
@[simp] theorem State.updSlice_debugPending (s : State) (k : Nat) (f : Slice → Slice) : (s.updSlice k f).debugPending = s.debugPending := rfl
@[simp] theorem State.updSlice_jtag (s : State) (k : Nat) (f : Slice → Slice) : (s.updSlice k f).jtag = s.jtag := rfl
@[simp] theorem State.updSlice_conf (s : State) (k : Nat) (f : Slice → Slice) : (s.updSlice k f).conf = s.conf := rfl
@[simp] theorem State.updSlice_ctrs (s : State) (k : Nat) (f : Slice → Slice) : (s.updSlice k f).ctrs = s.ctrs := rfl
@[simp] theorem State.updSlice_events (s : State) (k : Nat) (f : Slice → Slice) : (s.updSlice k f).events = s.events := rfl
@[simp] theorem State.updSlice_snare (s : State) (k : Nat) (f : Slice → Slice) : (s.updSlice k f).snare = s.snare := rfl
@[simp] theorem State.updSlice_ports (s : State) (k : Nat) (f : Slice → Slice) : (s.updSlice k f).ports = s.ports := rfl
@[simp] theorem State.updSlice_sw (s : State) (k : Nat) (f : Slice → Slice) : (s.updSlice k f).sw = s.sw := rfl
@[simp] theorem State.updSlice_lines (s : State) (k : Nat) (f : Slice → Slice) : (s.updSlice k f).lines = s.lines := rfl
@[simp] theorem State.updSlice_descs (s : State) (k : Nat) (f : Slice → Slice) : (s.updSlice k f).descs = s.descs := rfl
@[simp] theorem State.updSlice_nextDesc (s : State) (k : Nat) (f : Slice → Slice) : (s.updSlice k f).nextDesc = s.nextDesc := rfl
@[simp] theorem State.updSlice_nodeOps (s : State) (k : Nat) (f : Slice → Slice) : (s.updSlice k f).nodeOps = s.nodeOps := rfl
@[simp] theorem State.updSlice_syncs (s : State) (k : Nat) (f : Slice → Slice) : (s.updSlice k f).syncs = s.syncs := rfl
@[simp] theorem State.updSlice_waits (s : State) (k : Nat) (f : Slice → Slice) : (s.updSlice k f).waits = s.waits := rfl
@[simp] theorem State.updSlice_parts (s : State) (k : Nat) (f : Slice → Slice) : (s.updSlice k f).parts = s.parts := rfl
@[simp] theorem State.updSlice_groups (s : State) (k : Nat) (f : Slice → Slice) : (s.updSlice k f).groups = s.groups := rfl
@[simp] theorem State.updSlice_xfers (s : State) (k : Nat) (f : Slice → Slice) : (s.updSlice k f).xfers = s.xfers := rfl
@[simp] theorem State.updSlice_nextXfer (s : State) (k : Nat) (f : Slice → Slice) : (s.updSlice k f).nextXfer = s.nextXfer := rfl
@[simp] theorem State.updSlice_progs (s : State) (k : Nat) (f : Slice → Slice) : (s.updSlice k f).progs = s.progs := rfl
@[simp] theorem State.updSlice_nextLoad (s : State) (k : Nat) (f : Slice → Slice) : (s.updSlice k f).nextLoad = s.nextLoad := rfl
@[simp] theorem State.updSlice_invs (s : State) (k : Nat) (f : Slice → Slice) : (s.updSlice k f).invs = s.invs := rfl
@[simp] theorem State.updSlice_nextInv (s : State) (k : Nat) (f : Slice → Slice) : (s.updSlice k f).nextInv = s.nextInv := rfl
@[simp] theorem State.updSlice_cores (s : State) (k : Nat) (f : Slice → Slice) : (s.updSlice k f).cores = s.cores := rfl
@[simp] theorem State.updSlice_clusters (s : State) (k : Nat) (f : Slice → Slice) : (s.updSlice k f).clusters = s.clusters := rfl
@[simp] theorem State.updSlice_engines (s : State) (k : Nat) (f : Slice → Slice) : (s.updSlice k f).engines = s.engines := rfl
@[simp] theorem State.updSlice_expanders (s : State) (k : Nat) (f : Slice → Slice) : (s.updSlice k f).expanders = s.expanders := rfl
@[simp] theorem State.updSlice_basalt (s : State) (k : Nat) (f : Slice → Slice) : (s.updSlice k f).basalt = s.basalt := rfl
@[simp] theorem State.updSlice_ctxs (s : State) (k : Nat) (f : Slice → Slice) : (s.updSlice k f).ctxs = s.ctxs := rfl
@[simp] theorem State.updSlice_caches (s : State) (k : Nat) (f : Slice → Slice) : (s.updSlice k f).caches = s.caches := rfl
@[simp] theorem State.updSlice_remoteOps (s : State) (k : Nat) (f : Slice → Slice) : (s.updSlice k f).remoteOps = s.remoteOps := rfl
@[simp] theorem State.updSlice_nextRemote (s : State) (k : Nat) (f : Slice → Slice) : (s.updSlice k f).nextRemote = s.nextRemote := rfl
@[simp] theorem State.updSlice_keys (s : State) (k : Nat) (f : Slice → Slice) : (s.updSlice k f).keys = s.keys := rfl
@[simp] theorem State.updSlice_mirrors (s : State) (k : Nat) (f : Slice → Slice) : (s.updSlice k f).mirrors = s.mirrors := rfl
@[simp] theorem State.updSlice_partnerAnswer (s : State) (k : Nat) (f : Slice → Slice) : (s.updSlice k f).partnerAnswer = s.partnerAnswer := rfl
@[simp] theorem State.updSlice_tocsin (s : State) (k : Nat) (f : Slice → Slice) : (s.updSlice k f).tocsin = s.tocsin := rfl
@[simp] theorem State.updSlice_mail (s : State) (k : Nat) (f : Slice → Slice) : (s.updSlice k f).mail = s.mail := rfl
@[simp] theorem State.updSlice_power (s : State) (k : Nat) (f : Slice → Slice) : (s.updSlice k f).power = s.power := rfl

/-! ### updOut -/

@[simp] theorem State.updOut_pending (s : State) (o : Nat) (f : OutPort → OutPort) : (s.updOut o f).pending = s.pending := rfl
@[simp] theorem State.updOut_handed (s : State) (o : Nat) (f : OutPort → OutPort) : (s.updOut o f).handed = s.handed := rfl
@[simp] theorem State.updOut_resuming (s : State) (o : Nat) (f : OutPort → OutPort) : (s.updOut o f).resuming = s.resuming := rfl
@[simp] theorem State.updOut_freeCtr (s : State) (o : Nat) (f : OutPort → OutPort) : (s.updOut o f).freeCtr = s.freeCtr := rfl
@[simp] theorem State.updOut_cycle (s : State) (o : Nat) (f : OutPort → OutPort) : (s.updOut o f).cycle = s.cycle := rfl
@[simp] theorem State.updOut_out (s : State) (o : Nat) (f : OutPort → OutPort) : (s.updOut o f).out = s.out := rfl
@[simp] theorem State.updOut_quartz (s : State) (o : Nat) (f : OutPort → OutPort) : (s.updOut o f).quartz = s.quartz := rfl
@[simp] theorem State.updOut_boot (s : State) (o : Nat) (f : OutPort → OutPort) : (s.updOut o f).boot = s.boot := rfl
@[simp] theorem State.updOut_flash (s : State) (o : Nat) (f : OutPort → OutPort) : (s.updOut o f).flash = s.flash := rfl
@[simp] theorem State.updOut_fixed (s : State) (o : Nat) (f : OutPort → OutPort) : (s.updOut o f).fixed = s.fixed := rfl
@[simp] theorem State.updOut_owner (s : State) (o : Nat) (f : OutPort → OutPort) : (s.updOut o f).owner = s.owner := rfl
@[simp] theorem State.updOut_debugScope (s : State) (o : Nat) (f : OutPort → OutPort) : (s.updOut o f).debugScope = s.debugScope := rfl
@[simp] theorem State.updOut_debugPending (s : State) (o : Nat) (f : OutPort → OutPort) : (s.updOut o f).debugPending = s.debugPending := rfl
@[simp] theorem State.updOut_jtag (s : State) (o : Nat) (f : OutPort → OutPort) : (s.updOut o f).jtag = s.jtag := rfl
@[simp] theorem State.updOut_conf (s : State) (o : Nat) (f : OutPort → OutPort) : (s.updOut o f).conf = s.conf := rfl
@[simp] theorem State.updOut_ctrs (s : State) (o : Nat) (f : OutPort → OutPort) : (s.updOut o f).ctrs = s.ctrs := rfl
@[simp] theorem State.updOut_events (s : State) (o : Nat) (f : OutPort → OutPort) : (s.updOut o f).events = s.events := rfl
@[simp] theorem State.updOut_snare (s : State) (o : Nat) (f : OutPort → OutPort) : (s.updOut o f).snare = s.snare := rfl
@[simp] theorem State.updOut_ports (s : State) (o : Nat) (f : OutPort → OutPort) : (s.updOut o f).ports = s.ports := rfl
@[simp] theorem State.updOut_lines (s : State) (o : Nat) (f : OutPort → OutPort) : (s.updOut o f).lines = s.lines := rfl
@[simp] theorem State.updOut_descs (s : State) (o : Nat) (f : OutPort → OutPort) : (s.updOut o f).descs = s.descs := rfl
@[simp] theorem State.updOut_nextDesc (s : State) (o : Nat) (f : OutPort → OutPort) : (s.updOut o f).nextDesc = s.nextDesc := rfl
@[simp] theorem State.updOut_nodeOps (s : State) (o : Nat) (f : OutPort → OutPort) : (s.updOut o f).nodeOps = s.nodeOps := rfl
@[simp] theorem State.updOut_syncs (s : State) (o : Nat) (f : OutPort → OutPort) : (s.updOut o f).syncs = s.syncs := rfl
@[simp] theorem State.updOut_waits (s : State) (o : Nat) (f : OutPort → OutPort) : (s.updOut o f).waits = s.waits := rfl
@[simp] theorem State.updOut_parts (s : State) (o : Nat) (f : OutPort → OutPort) : (s.updOut o f).parts = s.parts := rfl
@[simp] theorem State.updOut_groups (s : State) (o : Nat) (f : OutPort → OutPort) : (s.updOut o f).groups = s.groups := rfl
@[simp] theorem State.updOut_slices (s : State) (o : Nat) (f : OutPort → OutPort) : (s.updOut o f).slices = s.slices := rfl
@[simp] theorem State.updOut_xfers (s : State) (o : Nat) (f : OutPort → OutPort) : (s.updOut o f).xfers = s.xfers := rfl
@[simp] theorem State.updOut_nextXfer (s : State) (o : Nat) (f : OutPort → OutPort) : (s.updOut o f).nextXfer = s.nextXfer := rfl
@[simp] theorem State.updOut_progs (s : State) (o : Nat) (f : OutPort → OutPort) : (s.updOut o f).progs = s.progs := rfl
@[simp] theorem State.updOut_nextLoad (s : State) (o : Nat) (f : OutPort → OutPort) : (s.updOut o f).nextLoad = s.nextLoad := rfl
@[simp] theorem State.updOut_invs (s : State) (o : Nat) (f : OutPort → OutPort) : (s.updOut o f).invs = s.invs := rfl
@[simp] theorem State.updOut_nextInv (s : State) (o : Nat) (f : OutPort → OutPort) : (s.updOut o f).nextInv = s.nextInv := rfl
@[simp] theorem State.updOut_cores (s : State) (o : Nat) (f : OutPort → OutPort) : (s.updOut o f).cores = s.cores := rfl
@[simp] theorem State.updOut_clusters (s : State) (o : Nat) (f : OutPort → OutPort) : (s.updOut o f).clusters = s.clusters := rfl
@[simp] theorem State.updOut_engines (s : State) (o : Nat) (f : OutPort → OutPort) : (s.updOut o f).engines = s.engines := rfl
@[simp] theorem State.updOut_expanders (s : State) (o : Nat) (f : OutPort → OutPort) : (s.updOut o f).expanders = s.expanders := rfl
@[simp] theorem State.updOut_basalt (s : State) (o : Nat) (f : OutPort → OutPort) : (s.updOut o f).basalt = s.basalt := rfl
@[simp] theorem State.updOut_ctxs (s : State) (o : Nat) (f : OutPort → OutPort) : (s.updOut o f).ctxs = s.ctxs := rfl
@[simp] theorem State.updOut_caches (s : State) (o : Nat) (f : OutPort → OutPort) : (s.updOut o f).caches = s.caches := rfl
@[simp] theorem State.updOut_remoteOps (s : State) (o : Nat) (f : OutPort → OutPort) : (s.updOut o f).remoteOps = s.remoteOps := rfl
@[simp] theorem State.updOut_nextRemote (s : State) (o : Nat) (f : OutPort → OutPort) : (s.updOut o f).nextRemote = s.nextRemote := rfl
@[simp] theorem State.updOut_keys (s : State) (o : Nat) (f : OutPort → OutPort) : (s.updOut o f).keys = s.keys := rfl
@[simp] theorem State.updOut_mirrors (s : State) (o : Nat) (f : OutPort → OutPort) : (s.updOut o f).mirrors = s.mirrors := rfl
@[simp] theorem State.updOut_partnerAnswer (s : State) (o : Nat) (f : OutPort → OutPort) : (s.updOut o f).partnerAnswer = s.partnerAnswer := rfl
@[simp] theorem State.updOut_tocsin (s : State) (o : Nat) (f : OutPort → OutPort) : (s.updOut o f).tocsin = s.tocsin := rfl
@[simp] theorem State.updOut_mail (s : State) (o : Nat) (f : OutPort → OutPort) : (s.updOut o f).mail = s.mail := rfl
@[simp] theorem State.updOut_power (s : State) (o : Nat) (f : OutPort → OutPort) : (s.updOut o f).power = s.power := rfl

/-! ### updFlashDev -/

@[simp] theorem State.updFlashDev_pending (s : State) (d : Nat) (f : FlashDev → FlashDev) : (s.updFlashDev d f).pending = s.pending := rfl
@[simp] theorem State.updFlashDev_handed (s : State) (d : Nat) (f : FlashDev → FlashDev) : (s.updFlashDev d f).handed = s.handed := rfl
@[simp] theorem State.updFlashDev_resuming (s : State) (d : Nat) (f : FlashDev → FlashDev) : (s.updFlashDev d f).resuming = s.resuming := rfl
@[simp] theorem State.updFlashDev_freeCtr (s : State) (d : Nat) (f : FlashDev → FlashDev) : (s.updFlashDev d f).freeCtr = s.freeCtr := rfl
@[simp] theorem State.updFlashDev_cycle (s : State) (d : Nat) (f : FlashDev → FlashDev) : (s.updFlashDev d f).cycle = s.cycle := rfl
@[simp] theorem State.updFlashDev_out (s : State) (d : Nat) (f : FlashDev → FlashDev) : (s.updFlashDev d f).out = s.out := rfl
@[simp] theorem State.updFlashDev_quartz (s : State) (d : Nat) (f : FlashDev → FlashDev) : (s.updFlashDev d f).quartz = s.quartz := rfl
@[simp] theorem State.updFlashDev_boot (s : State) (d : Nat) (f : FlashDev → FlashDev) : (s.updFlashDev d f).boot = s.boot := rfl
@[simp] theorem State.updFlashDev_fixed (s : State) (d : Nat) (f : FlashDev → FlashDev) : (s.updFlashDev d f).fixed = s.fixed := rfl
@[simp] theorem State.updFlashDev_owner (s : State) (d : Nat) (f : FlashDev → FlashDev) : (s.updFlashDev d f).owner = s.owner := rfl
@[simp] theorem State.updFlashDev_debugScope (s : State) (d : Nat) (f : FlashDev → FlashDev) : (s.updFlashDev d f).debugScope = s.debugScope := rfl
@[simp] theorem State.updFlashDev_debugPending (s : State) (d : Nat) (f : FlashDev → FlashDev) : (s.updFlashDev d f).debugPending = s.debugPending := rfl
@[simp] theorem State.updFlashDev_jtag (s : State) (d : Nat) (f : FlashDev → FlashDev) : (s.updFlashDev d f).jtag = s.jtag := rfl
@[simp] theorem State.updFlashDev_conf (s : State) (d : Nat) (f : FlashDev → FlashDev) : (s.updFlashDev d f).conf = s.conf := rfl
@[simp] theorem State.updFlashDev_ctrs (s : State) (d : Nat) (f : FlashDev → FlashDev) : (s.updFlashDev d f).ctrs = s.ctrs := rfl
@[simp] theorem State.updFlashDev_events (s : State) (d : Nat) (f : FlashDev → FlashDev) : (s.updFlashDev d f).events = s.events := rfl
@[simp] theorem State.updFlashDev_snare (s : State) (d : Nat) (f : FlashDev → FlashDev) : (s.updFlashDev d f).snare = s.snare := rfl
@[simp] theorem State.updFlashDev_ports (s : State) (d : Nat) (f : FlashDev → FlashDev) : (s.updFlashDev d f).ports = s.ports := rfl
@[simp] theorem State.updFlashDev_sw (s : State) (d : Nat) (f : FlashDev → FlashDev) : (s.updFlashDev d f).sw = s.sw := rfl
@[simp] theorem State.updFlashDev_lines (s : State) (d : Nat) (f : FlashDev → FlashDev) : (s.updFlashDev d f).lines = s.lines := rfl
@[simp] theorem State.updFlashDev_descs (s : State) (d : Nat) (f : FlashDev → FlashDev) : (s.updFlashDev d f).descs = s.descs := rfl
@[simp] theorem State.updFlashDev_nextDesc (s : State) (d : Nat) (f : FlashDev → FlashDev) : (s.updFlashDev d f).nextDesc = s.nextDesc := rfl
@[simp] theorem State.updFlashDev_nodeOps (s : State) (d : Nat) (f : FlashDev → FlashDev) : (s.updFlashDev d f).nodeOps = s.nodeOps := rfl
@[simp] theorem State.updFlashDev_syncs (s : State) (d : Nat) (f : FlashDev → FlashDev) : (s.updFlashDev d f).syncs = s.syncs := rfl
@[simp] theorem State.updFlashDev_waits (s : State) (d : Nat) (f : FlashDev → FlashDev) : (s.updFlashDev d f).waits = s.waits := rfl
@[simp] theorem State.updFlashDev_parts (s : State) (d : Nat) (f : FlashDev → FlashDev) : (s.updFlashDev d f).parts = s.parts := rfl
@[simp] theorem State.updFlashDev_groups (s : State) (d : Nat) (f : FlashDev → FlashDev) : (s.updFlashDev d f).groups = s.groups := rfl
@[simp] theorem State.updFlashDev_slices (s : State) (d : Nat) (f : FlashDev → FlashDev) : (s.updFlashDev d f).slices = s.slices := rfl
@[simp] theorem State.updFlashDev_xfers (s : State) (d : Nat) (f : FlashDev → FlashDev) : (s.updFlashDev d f).xfers = s.xfers := rfl
@[simp] theorem State.updFlashDev_nextXfer (s : State) (d : Nat) (f : FlashDev → FlashDev) : (s.updFlashDev d f).nextXfer = s.nextXfer := rfl
@[simp] theorem State.updFlashDev_progs (s : State) (d : Nat) (f : FlashDev → FlashDev) : (s.updFlashDev d f).progs = s.progs := rfl
@[simp] theorem State.updFlashDev_nextLoad (s : State) (d : Nat) (f : FlashDev → FlashDev) : (s.updFlashDev d f).nextLoad = s.nextLoad := rfl
@[simp] theorem State.updFlashDev_invs (s : State) (d : Nat) (f : FlashDev → FlashDev) : (s.updFlashDev d f).invs = s.invs := rfl
@[simp] theorem State.updFlashDev_nextInv (s : State) (d : Nat) (f : FlashDev → FlashDev) : (s.updFlashDev d f).nextInv = s.nextInv := rfl
@[simp] theorem State.updFlashDev_cores (s : State) (d : Nat) (f : FlashDev → FlashDev) : (s.updFlashDev d f).cores = s.cores := rfl
@[simp] theorem State.updFlashDev_clusters (s : State) (d : Nat) (f : FlashDev → FlashDev) : (s.updFlashDev d f).clusters = s.clusters := rfl
@[simp] theorem State.updFlashDev_engines (s : State) (d : Nat) (f : FlashDev → FlashDev) : (s.updFlashDev d f).engines = s.engines := rfl
@[simp] theorem State.updFlashDev_expanders (s : State) (d : Nat) (f : FlashDev → FlashDev) : (s.updFlashDev d f).expanders = s.expanders := rfl
@[simp] theorem State.updFlashDev_basalt (s : State) (d : Nat) (f : FlashDev → FlashDev) : (s.updFlashDev d f).basalt = s.basalt := rfl
@[simp] theorem State.updFlashDev_ctxs (s : State) (d : Nat) (f : FlashDev → FlashDev) : (s.updFlashDev d f).ctxs = s.ctxs := rfl
@[simp] theorem State.updFlashDev_caches (s : State) (d : Nat) (f : FlashDev → FlashDev) : (s.updFlashDev d f).caches = s.caches := rfl
@[simp] theorem State.updFlashDev_remoteOps (s : State) (d : Nat) (f : FlashDev → FlashDev) : (s.updFlashDev d f).remoteOps = s.remoteOps := rfl
@[simp] theorem State.updFlashDev_nextRemote (s : State) (d : Nat) (f : FlashDev → FlashDev) : (s.updFlashDev d f).nextRemote = s.nextRemote := rfl
@[simp] theorem State.updFlashDev_keys (s : State) (d : Nat) (f : FlashDev → FlashDev) : (s.updFlashDev d f).keys = s.keys := rfl
@[simp] theorem State.updFlashDev_mirrors (s : State) (d : Nat) (f : FlashDev → FlashDev) : (s.updFlashDev d f).mirrors = s.mirrors := rfl
@[simp] theorem State.updFlashDev_partnerAnswer (s : State) (d : Nat) (f : FlashDev → FlashDev) : (s.updFlashDev d f).partnerAnswer = s.partnerAnswer := rfl
@[simp] theorem State.updFlashDev_tocsin (s : State) (d : Nat) (f : FlashDev → FlashDev) : (s.updFlashDev d f).tocsin = s.tocsin := rfl
@[simp] theorem State.updFlashDev_mail (s : State) (d : Nat) (f : FlashDev → FlashDev) : (s.updFlashDev d f).mail = s.mail := rfl
@[simp] theorem State.updFlashDev_power (s : State) (d : Nat) (f : FlashDev → FlashDev) : (s.updFlashDev d f).power = s.power := rfl

/-! ### hand -/

@[simp] theorem State.hand_pending (s : State) (i : Instr) : (s.hand i).pending = s.pending := rfl
@[simp] theorem State.hand_resuming (s : State) (i : Instr) : (s.hand i).resuming = s.resuming := rfl
@[simp] theorem State.hand_freeCtr (s : State) (i : Instr) : (s.hand i).freeCtr = s.freeCtr := rfl
@[simp] theorem State.hand_cycle (s : State) (i : Instr) : (s.hand i).cycle = s.cycle := rfl
@[simp] theorem State.hand_out (s : State) (i : Instr) : (s.hand i).out = s.out := rfl
@[simp] theorem State.hand_quartz (s : State) (i : Instr) : (s.hand i).quartz = s.quartz := rfl
@[simp] theorem State.hand_boot (s : State) (i : Instr) : (s.hand i).boot = s.boot := rfl
@[simp] theorem State.hand_flash (s : State) (i : Instr) : (s.hand i).flash = s.flash := rfl
@[simp] theorem State.hand_fixed (s : State) (i : Instr) : (s.hand i).fixed = s.fixed := rfl
@[simp] theorem State.hand_owner (s : State) (i : Instr) : (s.hand i).owner = s.owner := rfl
@[simp] theorem State.hand_debugScope (s : State) (i : Instr) : (s.hand i).debugScope = s.debugScope := rfl
@[simp] theorem State.hand_debugPending (s : State) (i : Instr) : (s.hand i).debugPending = s.debugPending := rfl
@[simp] theorem State.hand_jtag (s : State) (i : Instr) : (s.hand i).jtag = s.jtag := rfl
@[simp] theorem State.hand_conf (s : State) (i : Instr) : (s.hand i).conf = s.conf := rfl
@[simp] theorem State.hand_ctrs (s : State) (i : Instr) : (s.hand i).ctrs = s.ctrs := rfl
@[simp] theorem State.hand_events (s : State) (i : Instr) : (s.hand i).events = s.events := rfl
@[simp] theorem State.hand_snare (s : State) (i : Instr) : (s.hand i).snare = s.snare := rfl
@[simp] theorem State.hand_ports (s : State) (i : Instr) : (s.hand i).ports = s.ports := rfl
@[simp] theorem State.hand_sw (s : State) (i : Instr) : (s.hand i).sw = s.sw := rfl
@[simp] theorem State.hand_lines (s : State) (i : Instr) : (s.hand i).lines = s.lines := rfl
@[simp] theorem State.hand_descs (s : State) (i : Instr) : (s.hand i).descs = s.descs := rfl
@[simp] theorem State.hand_nextDesc (s : State) (i : Instr) : (s.hand i).nextDesc = s.nextDesc := rfl
@[simp] theorem State.hand_nodeOps (s : State) (i : Instr) : (s.hand i).nodeOps = s.nodeOps := rfl
@[simp] theorem State.hand_syncs (s : State) (i : Instr) : (s.hand i).syncs = s.syncs := rfl
@[simp] theorem State.hand_waits (s : State) (i : Instr) : (s.hand i).waits = s.waits := rfl
@[simp] theorem State.hand_parts (s : State) (i : Instr) : (s.hand i).parts = s.parts := rfl
@[simp] theorem State.hand_groups (s : State) (i : Instr) : (s.hand i).groups = s.groups := rfl
@[simp] theorem State.hand_slices (s : State) (i : Instr) : (s.hand i).slices = s.slices := rfl
@[simp] theorem State.hand_xfers (s : State) (i : Instr) : (s.hand i).xfers = s.xfers := rfl
@[simp] theorem State.hand_nextXfer (s : State) (i : Instr) : (s.hand i).nextXfer = s.nextXfer := rfl
@[simp] theorem State.hand_progs (s : State) (i : Instr) : (s.hand i).progs = s.progs := rfl
@[simp] theorem State.hand_nextLoad (s : State) (i : Instr) : (s.hand i).nextLoad = s.nextLoad := rfl
@[simp] theorem State.hand_invs (s : State) (i : Instr) : (s.hand i).invs = s.invs := rfl
@[simp] theorem State.hand_nextInv (s : State) (i : Instr) : (s.hand i).nextInv = s.nextInv := rfl
@[simp] theorem State.hand_cores (s : State) (i : Instr) : (s.hand i).cores = s.cores := rfl
@[simp] theorem State.hand_clusters (s : State) (i : Instr) : (s.hand i).clusters = s.clusters := rfl
@[simp] theorem State.hand_engines (s : State) (i : Instr) : (s.hand i).engines = s.engines := rfl
@[simp] theorem State.hand_expanders (s : State) (i : Instr) : (s.hand i).expanders = s.expanders := rfl
@[simp] theorem State.hand_basalt (s : State) (i : Instr) : (s.hand i).basalt = s.basalt := rfl
@[simp] theorem State.hand_ctxs (s : State) (i : Instr) : (s.hand i).ctxs = s.ctxs := rfl
@[simp] theorem State.hand_caches (s : State) (i : Instr) : (s.hand i).caches = s.caches := rfl
@[simp] theorem State.hand_remoteOps (s : State) (i : Instr) : (s.hand i).remoteOps = s.remoteOps := rfl
@[simp] theorem State.hand_nextRemote (s : State) (i : Instr) : (s.hand i).nextRemote = s.nextRemote := rfl
@[simp] theorem State.hand_keys (s : State) (i : Instr) : (s.hand i).keys = s.keys := rfl
@[simp] theorem State.hand_mirrors (s : State) (i : Instr) : (s.hand i).mirrors = s.mirrors := rfl
@[simp] theorem State.hand_partnerAnswer (s : State) (i : Instr) : (s.hand i).partnerAnswer = s.partnerAnswer := rfl
@[simp] theorem State.hand_tocsin (s : State) (i : Instr) : (s.hand i).tocsin = s.tocsin := rfl
@[simp] theorem State.hand_mail (s : State) (i : Instr) : (s.hand i).mail = s.mail := rfl
@[simp] theorem State.hand_power (s : State) (i : Instr) : (s.hand i).power = s.power := rfl

/-! ### resume -/

@[simp] theorem State.resume_pending (s : State) (id : Nat) (i : Instr) : (s.resume id i).pending = s.pending := rfl
@[simp] theorem State.resume_resuming (s : State) (id : Nat) (i : Instr) : (s.resume id i).resuming = s.resuming := rfl
@[simp] theorem State.resume_freeCtr (s : State) (id : Nat) (i : Instr) : (s.resume id i).freeCtr = s.freeCtr := rfl
@[simp] theorem State.resume_cycle (s : State) (id : Nat) (i : Instr) : (s.resume id i).cycle = s.cycle := rfl
@[simp] theorem State.resume_out (s : State) (id : Nat) (i : Instr) : (s.resume id i).out = s.out := rfl
@[simp] theorem State.resume_quartz (s : State) (id : Nat) (i : Instr) : (s.resume id i).quartz = s.quartz := rfl
@[simp] theorem State.resume_boot (s : State) (id : Nat) (i : Instr) : (s.resume id i).boot = s.boot := rfl
@[simp] theorem State.resume_flash (s : State) (id : Nat) (i : Instr) : (s.resume id i).flash = s.flash := rfl
@[simp] theorem State.resume_fixed (s : State) (id : Nat) (i : Instr) : (s.resume id i).fixed = s.fixed := rfl
@[simp] theorem State.resume_owner (s : State) (id : Nat) (i : Instr) : (s.resume id i).owner = s.owner := rfl
@[simp] theorem State.resume_debugScope (s : State) (id : Nat) (i : Instr) : (s.resume id i).debugScope = s.debugScope := rfl
@[simp] theorem State.resume_debugPending (s : State) (id : Nat) (i : Instr) : (s.resume id i).debugPending = s.debugPending := rfl
@[simp] theorem State.resume_jtag (s : State) (id : Nat) (i : Instr) : (s.resume id i).jtag = s.jtag := rfl
@[simp] theorem State.resume_conf (s : State) (id : Nat) (i : Instr) : (s.resume id i).conf = s.conf := rfl
@[simp] theorem State.resume_ctrs (s : State) (id : Nat) (i : Instr) : (s.resume id i).ctrs = s.ctrs := rfl
@[simp] theorem State.resume_events (s : State) (id : Nat) (i : Instr) : (s.resume id i).events = s.events := rfl
@[simp] theorem State.resume_snare (s : State) (id : Nat) (i : Instr) : (s.resume id i).snare = s.snare := rfl
@[simp] theorem State.resume_ports (s : State) (id : Nat) (i : Instr) : (s.resume id i).ports = s.ports := rfl
@[simp] theorem State.resume_sw (s : State) (id : Nat) (i : Instr) : (s.resume id i).sw = s.sw := rfl
@[simp] theorem State.resume_lines (s : State) (id : Nat) (i : Instr) : (s.resume id i).lines = s.lines := rfl
@[simp] theorem State.resume_descs (s : State) (id : Nat) (i : Instr) : (s.resume id i).descs = s.descs := rfl
@[simp] theorem State.resume_nextDesc (s : State) (id : Nat) (i : Instr) : (s.resume id i).nextDesc = s.nextDesc := rfl
@[simp] theorem State.resume_nodeOps (s : State) (id : Nat) (i : Instr) : (s.resume id i).nodeOps = s.nodeOps := rfl
@[simp] theorem State.resume_syncs (s : State) (id : Nat) (i : Instr) : (s.resume id i).syncs = s.syncs := rfl
@[simp] theorem State.resume_waits (s : State) (id : Nat) (i : Instr) : (s.resume id i).waits = s.waits := rfl
@[simp] theorem State.resume_parts (s : State) (id : Nat) (i : Instr) : (s.resume id i).parts = s.parts := rfl
@[simp] theorem State.resume_groups (s : State) (id : Nat) (i : Instr) : (s.resume id i).groups = s.groups := rfl
@[simp] theorem State.resume_slices (s : State) (id : Nat) (i : Instr) : (s.resume id i).slices = s.slices := rfl
@[simp] theorem State.resume_xfers (s : State) (id : Nat) (i : Instr) : (s.resume id i).xfers = s.xfers := rfl
@[simp] theorem State.resume_nextXfer (s : State) (id : Nat) (i : Instr) : (s.resume id i).nextXfer = s.nextXfer := rfl
@[simp] theorem State.resume_progs (s : State) (id : Nat) (i : Instr) : (s.resume id i).progs = s.progs := rfl
@[simp] theorem State.resume_nextLoad (s : State) (id : Nat) (i : Instr) : (s.resume id i).nextLoad = s.nextLoad := rfl
@[simp] theorem State.resume_invs (s : State) (id : Nat) (i : Instr) : (s.resume id i).invs = s.invs := rfl
@[simp] theorem State.resume_nextInv (s : State) (id : Nat) (i : Instr) : (s.resume id i).nextInv = s.nextInv := rfl
@[simp] theorem State.resume_cores (s : State) (id : Nat) (i : Instr) : (s.resume id i).cores = s.cores := rfl
@[simp] theorem State.resume_clusters (s : State) (id : Nat) (i : Instr) : (s.resume id i).clusters = s.clusters := rfl
@[simp] theorem State.resume_engines (s : State) (id : Nat) (i : Instr) : (s.resume id i).engines = s.engines := rfl
@[simp] theorem State.resume_expanders (s : State) (id : Nat) (i : Instr) : (s.resume id i).expanders = s.expanders := rfl
@[simp] theorem State.resume_basalt (s : State) (id : Nat) (i : Instr) : (s.resume id i).basalt = s.basalt := rfl
@[simp] theorem State.resume_ctxs (s : State) (id : Nat) (i : Instr) : (s.resume id i).ctxs = s.ctxs := rfl
@[simp] theorem State.resume_caches (s : State) (id : Nat) (i : Instr) : (s.resume id i).caches = s.caches := rfl
@[simp] theorem State.resume_remoteOps (s : State) (id : Nat) (i : Instr) : (s.resume id i).remoteOps = s.remoteOps := rfl
@[simp] theorem State.resume_nextRemote (s : State) (id : Nat) (i : Instr) : (s.resume id i).nextRemote = s.nextRemote := rfl
@[simp] theorem State.resume_keys (s : State) (id : Nat) (i : Instr) : (s.resume id i).keys = s.keys := rfl
@[simp] theorem State.resume_mirrors (s : State) (id : Nat) (i : Instr) : (s.resume id i).mirrors = s.mirrors := rfl
@[simp] theorem State.resume_partnerAnswer (s : State) (id : Nat) (i : Instr) : (s.resume id i).partnerAnswer = s.partnerAnswer := rfl
@[simp] theorem State.resume_tocsin (s : State) (id : Nat) (i : Instr) : (s.resume id i).tocsin = s.tocsin := rfl
@[simp] theorem State.resume_mail (s : State) (id : Nat) (i : Instr) : (s.resume id i).mail = s.mail := rfl
@[simp] theorem State.resume_power (s : State) (id : Nat) (i : Instr) : (s.resume id i).power = s.power := rfl

/-! ### emit -/

@[simp] theorem State.emit_pending (s : State) (o : Output) : (s.emit o).pending = s.pending := rfl
@[simp] theorem State.emit_handed (s : State) (o : Output) : (s.emit o).handed = s.handed := rfl
@[simp] theorem State.emit_resuming (s : State) (o : Output) : (s.emit o).resuming = s.resuming := rfl
@[simp] theorem State.emit_freeCtr (s : State) (o : Output) : (s.emit o).freeCtr = s.freeCtr := rfl
@[simp] theorem State.emit_cycle (s : State) (o : Output) : (s.emit o).cycle = s.cycle := rfl
@[simp] theorem State.emit_quartz (s : State) (o : Output) : (s.emit o).quartz = s.quartz := rfl
@[simp] theorem State.emit_boot (s : State) (o : Output) : (s.emit o).boot = s.boot := rfl
@[simp] theorem State.emit_flash (s : State) (o : Output) : (s.emit o).flash = s.flash := rfl
@[simp] theorem State.emit_fixed (s : State) (o : Output) : (s.emit o).fixed = s.fixed := rfl
@[simp] theorem State.emit_owner (s : State) (o : Output) : (s.emit o).owner = s.owner := rfl
@[simp] theorem State.emit_debugScope (s : State) (o : Output) : (s.emit o).debugScope = s.debugScope := rfl
@[simp] theorem State.emit_debugPending (s : State) (o : Output) : (s.emit o).debugPending = s.debugPending := rfl
@[simp] theorem State.emit_jtag (s : State) (o : Output) : (s.emit o).jtag = s.jtag := rfl
@[simp] theorem State.emit_conf (s : State) (o : Output) : (s.emit o).conf = s.conf := rfl
@[simp] theorem State.emit_ctrs (s : State) (o : Output) : (s.emit o).ctrs = s.ctrs := rfl
@[simp] theorem State.emit_events (s : State) (o : Output) : (s.emit o).events = s.events := rfl
@[simp] theorem State.emit_snare (s : State) (o : Output) : (s.emit o).snare = s.snare := rfl
@[simp] theorem State.emit_ports (s : State) (o : Output) : (s.emit o).ports = s.ports := rfl
@[simp] theorem State.emit_sw (s : State) (o : Output) : (s.emit o).sw = s.sw := rfl
@[simp] theorem State.emit_lines (s : State) (o : Output) : (s.emit o).lines = s.lines := rfl
@[simp] theorem State.emit_descs (s : State) (o : Output) : (s.emit o).descs = s.descs := rfl
@[simp] theorem State.emit_nextDesc (s : State) (o : Output) : (s.emit o).nextDesc = s.nextDesc := rfl
@[simp] theorem State.emit_nodeOps (s : State) (o : Output) : (s.emit o).nodeOps = s.nodeOps := rfl
@[simp] theorem State.emit_syncs (s : State) (o : Output) : (s.emit o).syncs = s.syncs := rfl
@[simp] theorem State.emit_waits (s : State) (o : Output) : (s.emit o).waits = s.waits := rfl
@[simp] theorem State.emit_parts (s : State) (o : Output) : (s.emit o).parts = s.parts := rfl
@[simp] theorem State.emit_groups (s : State) (o : Output) : (s.emit o).groups = s.groups := rfl
@[simp] theorem State.emit_slices (s : State) (o : Output) : (s.emit o).slices = s.slices := rfl
@[simp] theorem State.emit_xfers (s : State) (o : Output) : (s.emit o).xfers = s.xfers := rfl
@[simp] theorem State.emit_nextXfer (s : State) (o : Output) : (s.emit o).nextXfer = s.nextXfer := rfl
@[simp] theorem State.emit_progs (s : State) (o : Output) : (s.emit o).progs = s.progs := rfl
@[simp] theorem State.emit_nextLoad (s : State) (o : Output) : (s.emit o).nextLoad = s.nextLoad := rfl
@[simp] theorem State.emit_invs (s : State) (o : Output) : (s.emit o).invs = s.invs := rfl
@[simp] theorem State.emit_nextInv (s : State) (o : Output) : (s.emit o).nextInv = s.nextInv := rfl
@[simp] theorem State.emit_cores (s : State) (o : Output) : (s.emit o).cores = s.cores := rfl
@[simp] theorem State.emit_clusters (s : State) (o : Output) : (s.emit o).clusters = s.clusters := rfl
@[simp] theorem State.emit_engines (s : State) (o : Output) : (s.emit o).engines = s.engines := rfl
@[simp] theorem State.emit_expanders (s : State) (o : Output) : (s.emit o).expanders = s.expanders := rfl
@[simp] theorem State.emit_basalt (s : State) (o : Output) : (s.emit o).basalt = s.basalt := rfl
@[simp] theorem State.emit_ctxs (s : State) (o : Output) : (s.emit o).ctxs = s.ctxs := rfl
@[simp] theorem State.emit_caches (s : State) (o : Output) : (s.emit o).caches = s.caches := rfl
@[simp] theorem State.emit_remoteOps (s : State) (o : Output) : (s.emit o).remoteOps = s.remoteOps := rfl
@[simp] theorem State.emit_nextRemote (s : State) (o : Output) : (s.emit o).nextRemote = s.nextRemote := rfl
@[simp] theorem State.emit_keys (s : State) (o : Output) : (s.emit o).keys = s.keys := rfl
@[simp] theorem State.emit_mirrors (s : State) (o : Output) : (s.emit o).mirrors = s.mirrors := rfl
@[simp] theorem State.emit_partnerAnswer (s : State) (o : Output) : (s.emit o).partnerAnswer = s.partnerAnswer := rfl
@[simp] theorem State.emit_tocsin (s : State) (o : Output) : (s.emit o).tocsin = s.tocsin := rfl
@[simp] theorem State.emit_mail (s : State) (o : Output) : (s.emit o).mail = s.mail := rfl
@[simp] theorem State.emit_power (s : State) (o : Output) : (s.emit o).power = s.power := rfl

/-! ### What each changes -/

@[simp] theorem State.hand_handed (s : State) (i : Instr) : (s.hand i).handed = s.handed ++ [(none, i)] := rfl
@[simp] theorem State.resume_handed (s : State) (id : Nat) (i : Instr) : (s.resume id i).handed = s.handed ++ [(some id, i)] := rfl
@[simp] theorem State.emit_out (s : State) (o : Output) : (s.emit o).out = s.out ++ [o] := rfl
@[simp] theorem State.free_fst (s : State) : s.free.1 = Config.freeValue s.freeCtr := rfl
@[simp] theorem State.free_snd (s : State) : s.free.2 = { s with freeCtr := s.freeCtr + 1 } := rfl
@[simp] theorem State.freeOctets_snd (s : State) (n : Nat) : (s.freeOctets n).2 = { s with freeCtr := s.freeCtr + n } := rfl
@[simp] theorem State.freeOctets_length (s : State) (n : Nat) : (s.freeOctets n).1.length = n := by simp [State.freeOctets]

/-- The unit that `updPart` names holds the new value. -/
@[simp] theorem State.updPart_part_self (s : State) (p : Nat) (f : PartState → PartState) : (s.updPart p f).part p = f (s.part p) := by
  simp [State.updPart, State.part]

/-- Every other unit is as it was. -/
theorem State.updPart_part_ne (s : State) (p j : Nat) (f : PartState → PartState) (h : fin64 p ≠ fin64 j) :
    (s.updPart p f).part j = s.part j := by
  have : (fin64 p : Nat) ≠ (fin64 j : Nat) := fun e => h (Fin.ext e)
  simp [State.updPart, State.part, this]

@[simp] theorem State.updPart_part_arr (s : State) (p : Nat) (f : PartState → PartState) : (s.updPart p f).parts = s.parts.set (fin64 p) (f (s.part p)) := rfl

/-- The unit that `updPort` names holds the new value. -/
@[simp] theorem State.updPort_port_self (s : State) (n : Nat) (f : LocalPortState → LocalPortState) : (s.updPort n f).port n = f (s.port n) := by
  simp [State.updPort, State.port]

/-- Every other unit is as it was. -/
theorem State.updPort_port_ne (s : State) (n j : Nat) (f : LocalPortState → LocalPortState) (h : fin64 n ≠ fin64 j) :
    (s.updPort n f).port j = s.port j := by
  have : (fin64 n : Nat) ≠ (fin64 j : Nat) := fun e => h (Fin.ext e)
  simp [State.updPort, State.port, this]

@[simp] theorem State.updPort_port_arr (s : State) (n : Nat) (f : LocalPortState → LocalPortState) : (s.updPort n f).ports = s.ports.set (fin64 n) (f (s.port n)) := rfl

/-- The unit that `updLine` names holds the new value. -/
@[simp] theorem State.updLine_line_self (s : State) (m : Nat) (f : LinePortState → LinePortState) : (s.updLine m f).line m = f (s.line m) := by
  simp [State.updLine, State.line]

/-- Every other unit is as it was. -/
theorem State.updLine_line_ne (s : State) (m j : Nat) (f : LinePortState → LinePortState) (h : fin16 m ≠ fin16 j) :
    (s.updLine m f).line j = s.line j := by
  have : (fin16 m : Nat) ≠ (fin16 j : Nat) := fun e => h (Fin.ext e)
  simp [State.updLine, State.line, this]

@[simp] theorem State.updLine_line_arr (s : State) (m : Nat) (f : LinePortState → LinePortState) : (s.updLine m f).lines = s.lines.set (fin16 m) (f (s.line m)) := rfl

/-- The unit that `updCluster` names holds the new value. -/
@[simp] theorem State.updCluster_cluster_self (s : State) (c : Nat) (f : Cluster → Cluster) : (s.updCluster c f).cluster c = f (s.cluster c) := by
  simp [State.updCluster, State.cluster]

/-- Every other unit is as it was. -/
theorem State.updCluster_cluster_ne (s : State) (c j : Nat) (f : Cluster → Cluster) (h : fin16 c ≠ fin16 j) :
    (s.updCluster c f).cluster j = s.cluster j := by
  have : (fin16 c : Nat) ≠ (fin16 j : Nat) := fun e => h (Fin.ext e)
  simp [State.updCluster, State.cluster, this]

@[simp] theorem State.updCluster_cluster_arr (s : State) (c : Nat) (f : Cluster → Cluster) : (s.updCluster c f).clusters = s.clusters.set (fin16 c) (f (s.cluster c)) := rfl

/-- The unit that `updCore` names holds the new value. -/
@[simp] theorem State.updCore_core_self (s : State) (k : Nat) (f : Core → Core) : (s.updCore k f).core k = f (s.core k) := by
  simp [State.updCore, State.core]

/-- Every other unit is as it was. -/
theorem State.updCore_core_ne (s : State) (k j : Nat) (f : Core → Core) (h : fin256 k ≠ fin256 j) :
    (s.updCore k f).core j = s.core j := by
  have : (fin256 k : Nat) ≠ (fin256 j : Nat) := fun e => h (Fin.ext e)
  simp [State.updCore, State.core, this]

@[simp] theorem State.updCore_core_arr (s : State) (k : Nat) (f : Core → Core) : (s.updCore k f).cores = s.cores.set (fin256 k) (f (s.core k)) := rfl

/-- The unit that `updEngine` names holds the new value. -/
@[simp] theorem State.updEngine_engine_self (s : State) (e : Nat) (f : Engine → Engine) : (s.updEngine e f).engine e = f (s.engine e) := by
  simp [State.updEngine, State.engine]

/-- Every other unit is as it was. -/
theorem State.updEngine_engine_ne (s : State) (e j : Nat) (f : Engine → Engine) (h : fin64 e ≠ fin64 j) :
    (s.updEngine e f).engine j = s.engine j := by
  have : (fin64 e : Nat) ≠ (fin64 j : Nat) := fun e => h (Fin.ext e)
  simp [State.updEngine, State.engine, this]

@[simp] theorem State.updEngine_engine_arr (s : State) (e : Nat) (f : Engine → Engine) : (s.updEngine e f).engines = s.engines.set (fin64 e) (f (s.engine e)) := rfl

/-- The unit that `updSlice` names holds the new value. -/
@[simp] theorem State.updSlice_sliceOf_self (s : State) (k : Nat) (f : Slice → Slice) : (s.updSlice k f).sliceOf k = f (s.sliceOf k) := by
  simp [State.updSlice, State.sliceOf]

/-- Every other unit is as it was. -/
theorem State.updSlice_sliceOf_ne (s : State) (k j : Nat) (f : Slice → Slice) (h : fin4 k ≠ fin4 j) :
    (s.updSlice k f).sliceOf j = s.sliceOf j := by
  have : (fin4 k : Nat) ≠ (fin4 j : Nat) := fun e => h (Fin.ext e)
  simp [State.updSlice, State.sliceOf, this]

@[simp] theorem State.updSlice_sliceOf_arr (s : State) (k : Nat) (f : Slice → Slice) : (s.updSlice k f).slices = s.slices.set (fin4 k) (f (s.sliceOf k)) := rfl

end Sys2Proof.Machine
end

