-- ==== Sys2Proof/Tests/Slice0.lean ====
section
/-! SUPPORT. The model's own tests: for every statement with hypotheses a state and operands that meet them, clause by clause, and what
one command does on a small state. -/

namespace Sys2Proof.Tests

set_option Elab.async false
set_option maxRecDepth 100000

open Sys2Proof Sys2Proof.Machine

/-! ### Small states -/

/-- A device after Ready: links up, nothing configured. -/
def ready : State := { State.reset with boot := { Boot.reset with phase := .ready }, tocsin := ⟨[true, true], [0, 0], [], 0⟩ }

/-- A device whose reset is held, with RESET_N low. -/
def held : State := { State.reset with boot := { Boot.reset with phase := .held, resetN := false, kind := .warm } }

/-- A device in stage n of a start. -/
def inStage (n : Nat) : State := { State.reset with boot := { Boot.reset with phase := .stage n } }

/-- A device in Watch. -/
def watch : State := { ready with power := { Power.reset with device := ⟨4, none, false, false⟩ } }

/-- A start stage in which every unit passes. -/
def allPass : StageResult :=
  { samples := (List.range 1024).map (fun i => (i / 2) % 2 == 0), flashA := true, flashB := true, suspendA := false, suspendB := false,
    pll0 := true, pll1 := true,
    sramClusters := [], sramSlices := [], sramLocal := [], sramLine := [], sramSpares := List.replicate 6 0, sramRepairs := [], sramDies := [],
    lambdaErrors := [], localErrors := [], lasers := List.replicate 5 0, serdesErrors := [], hbmFails := [], engineFails := [], coreFails := [],
      adderFails := [],
    cipherFails := [], clusterFails := [] }

theorem test_reset_memory : Memory.wf State.reset = true := by decide +kernel

/-! ### The machine as a whole, starts and resets -/

theorem witness_StepWithNoCommandWaiting :
    let s : State := { ready with handed := [(none, .jtagIdcode)] }
    (s.pending = [] ∧ s.handed = [(none, .jtagIdcode)] ∧ ∃ t, exec .jtagIdcode { s with handed := [], resuming := none } = .next t) ∧
      ready.pending = [] ∧ ready.handed = [] := ⟨⟨rfl, rfl, _, rfl⟩, rfl, rfl⟩

theorem witness_StepKeepsOwnerFuses :
    ownerLegal held.owner = true ∧ ∃ t, step { held with pending := [.resetNRise] } = .next t := ⟨rfl, _, rfl⟩

theorem witness_StepKeepsMemoriesCanonical :
    Memory.wf { held with pending := [.resetNRise] } = true ∧ ∃ t, step { held with pending := [.resetNRise] } = .next t :=
  ⟨by decide +kernel, _, rfl⟩

theorem witness_StepKeepsTheBooks :
    booksInOrder { held with pending := [.resetNRise] } ∧ ∃ t, step { held with pending := [.resetNRise] } = .next t :=
  ⟨by decide +kernel, _, rfl⟩

theorem witness_OnlyOwnerBindFuses : (∃ t, exec .resetNRise held = .next t) ∧ ∀ r, Instr.resetNRise ≠ .ownerBind r :=
  ⟨⟨_, rfl⟩, fun _ h => nomatch h⟩

theorem witness_StartRunsItsStages :
    ((State.reset.boot.phase = .waiting ∨ State.reset.boot.phase = .held) ∧ State.reset.boot.resetN = true ∧ State.reset.boot.refclk = true) ∧
    ((inStage 1).boot.phase = .stage 1 ∧ healthOk allPass.samples = true) ∧ (inStage 12).boot.phase = .stage 12 := by decide +kernel

theorem witness_WarmResets :
    ready.isHeld = false ∧ ready.boot.refclk = true ∧ ({ ready with boot := { ready.boot with refclk := false } } : State).boot.refclk = false := by
  decide +kernel

theorem witness_ColdResets :
    ready.neverStarted = false ∧ ready.boot.pwrgood = true ∧ held.isHeld = true ∧ held.boot.resetN = false ∧ held.boot.kind = .warm ∧
      State.reset.neverStarted = true := by decide +kernel

theorem witness_HoldEndsAndKeepPower :
    held.isHeld = true ∧ held.boot.refclk = true ∧ held.boot.pwrgood = true ∧ held.boot.badRails = [] ∧
      ({ held with tocsin := { held.tocsin with links := [true, false] } } : State).tocsin.links = [true, false] := by decide +kernel

theorem witness_ThermNFollowsTheDies :
    (115 : Int) ≤ 115 ∧ ([109, 0, 0, 0, 0, 0] : List Int).length = 6 ∧ (∀ x ∈ ([109, 0, 0, 0, 0, 0] : List Int), x < 110) ∧
      ∃ x ∈ ([110] : List Int), 110 ≤ x := by decide

theorem witness_ThrottleChangesNoResult :
    ready.power.throttle = none ∧
      ({ ready with power := { ready.power with throttle := some true } } : State).power.throttle = some true := by decide +kernel

/-- A ready device whose POWER record allows A2. -/
def lowPower : State := { ready with conf := { Conf.empty with power := some ⟨2, false, 0, 70, []⟩ } }

/-- Its cluster 0 in a power state. -/
def cluster0 (power : Nat) (entering : Option Nat) (waking : Bool) : State :=
  lowPower.updCluster 0 (fun c => { c with power := power, entering := entering, waking := waking })

theorem witness_ClusterSleepsAndWakes :
    (lowPower.boot.phase = .ready ∧ lowPower.unitIdle (.cluster 0) = true ∧ lowPower.unitPower (.cluster 0) = .run ∧
      lowPower.powerLimits.1 = 2 ∧ lowPower.knownEvents (.cluster 0) = []) ∧
    (cluster0 0 (some 2) false).unitPower (.cluster 0) = ⟨0, some 2, false, false⟩ ∧
    (cluster0 2 none false).unitPower (.cluster 0) = ⟨1 + 1, none, false, false⟩ ∧
    (cluster0 2 none true).unitPower (.cluster 0) = ⟨2, none, true, false⟩ := by decide +kernel

/-- A LINE record of port 0. -/
def line0 : LineRec :=
  { port := 0, enabled := true, traceStops := false, site := 2, expected := zeros 64, transmitted := zeros 64, keySlot := 64, reserve := 1 }

theorem witness_WatchWakes :
    let s : State := { watch with conf := { Conf.empty with lines := [line0], power := some ⟨4, false, 0, 70, []⟩ } }
    s.power.device = ⟨4, none, false, false⟩ ∧ s.conf.lineOf (0 : LinePort) = some line0 ∧ line0.enabled = true ∧
    s.conf.power = some ⟨4, false, 0, 70, []⟩ ∧ (70 : Int) ≤ 70 ∧ ready.power.device.state ≠ 4 ∧
    (let t : State := { watch with power := { watch.power with device := ⟨4, none, true, false⟩ } }
     t.power.device.state = 4 ∧ t.power.device.waking = true) ∧
    ({ allPass with pll0 := false, pll1 := false } : StageResult).pll0 = false := by decide +kernel

/-! ### Descriptors -/

/-- A tenant partition's record: pair (0, 10), cluster 0, line port 0, slots 64 to 67, the last four sync objects, groups 0 to 3. -/
def tenantRec : PartRec :=
  { part := 1, isolated := false, haltOnNan := false, tenantPrograms := true, clusterMask := 1, lineMask := 1, weights := [1, 0, 0, 0],
    keyFirst := 64, keyCount := 4, syncFirst := 16380, syncCount := 4, groupFirst := 0, groupCount := 4, streamFirst := 16,
    streamCount := 16, cache := [1, 1], dma := [1, 0, 0, 0], progKeyHash := zeros 48, pairs := [(0, 10)] }

/-- A window of partition 1 with every right. -/
def win (index kind cluster base limit : Nat) : Window := ⟨1, index, kind, true, true, true, true, cluster, base, limit⟩

/-- Global address of an octet of a node. -/
def globalAt (site node off : Nat) : Nat := site * 2 ^ 56 + node * 2 ^ 40 + off

/-- The configuration of one tenant: port 0, windows over scratch of cluster 0, Basalt and node 5 of the local site. -/
def tenantConf : Conf :=
  { Conf.empty with
    parts := [tenantRec], ports := [⟨0, true, false, 0, 0, 64⟩], lines := [line0],
    windows := [win 0 1 0 (globalAt 1 5 0) (globalAt 1 5 65536), win 1 2 0 0 0x7E0000, win 2 3 0 0 65536] }

/-- The tenant, ACTIVE, with its pair in the map and the links of its port up. -/
def tenant : State :=
  { (({ ready with conf := tenantConf, sw := { Switch.reset with pools := List.replicate 24 ⟨256, 16, [], 0, [], 16⟩ } } : State).updPart 1
      (fun q => { q with state := .active, pairs := [(0, 10)], candPairs := [(0, 10)], candLines := [0] })).updPort 0
      (fun q => { q with inService := true, linkUp := true, granted := 64, peerGranted := 64 }) with nextDesc := 8 }

/-- The header of a descriptor frame of the tenant. -/
def hdr : DescHdr :=
  { port := 0, vlan := 10, cls := 0, src := 1, wantCompletion := true, fence := false, tag := 7, stream := 0, units := 1 }

/-- The tenant with one descriptor of its pair accepted. -/
def accepted1 (cmd : Instr) (op : Nat) : State :=
  { tenant with descs := [{ id := 3, part := 1, hdr := hdr, opcode := op, hold := .running, cmd := cmd, beforeStep := false }] }

/-- That descriptor waits on a sync object. -/
def waiting1 : State := { accepted1 (.soWaitGe hdr 16383 5 100) 0x20 with waits := [⟨3, 1, 16383, 5, 100⟩] }

theorem witness_SyncObjects :
    (startsAtOnce tenant hdr 1 ∧ descsFresh tenant ∧ tenant.syncCheck 1 16383 = none ∧ tenant.syncValue 16383 + 4294967295 ≤ 4294967295) ∧
    (startsAtOnce waiting1 hdr 1 ∧ descsFresh waiting1 ∧ waiting1.syncCheck 1 16383 = none ∧ waiting1.syncValue 16383 + 5 ≤ 4294967295 ∧
      (∃ w ∈ waiting1.waits, w.sync = 16383 ∧ w.target ≤ waiting1.syncValue 16383 + 5 ∧ (waiting1.desc w.desc).isSome = true)) ∧
    4294967295 < tenant.syncValue 16383 + 4294967296 ∧
    (waiting1.waits.find? (fun x => x.desc == 3) = some ⟨3, 1, 16383, 5, 100⟩ ∧ (waiting1.desc 3).isSome = true) := by decide +kernel

/-- The tenant in another state of its partition. -/
def tenantIn (st : PState) : State := tenant.updPart 1 (fun q => { q with state := st })

theorem witness_StatusOrder :
    (tenant.resuming = none ∧ tenant.ownerOf 1 10 none = none) ∧
    (tenant.resuming = none ∧ tenant.ownerOf hdr.port hdr.vlan hdr.owner = some 1 ∧ tenant.waitsFor hdr = [] ∧ (tenant.part 1).state = .active ∧
      tenant.syncCheck 1 16379 ≠ none ∧ tenant.syncCheck 1 16380 = none) ∧
    ((tenantIn .starting).ownerOf hdr.port hdr.vlan hdr.owner = some 1 ∧ (tenantIn .starting).waitsFor hdr = [] ∧
      ((tenantIn .starting).part 1).state = .starting) ∧
    ((tenantIn .halted).ownerOf hdr.port hdr.vlan hdr.owner = some 1 ∧ ((tenantIn .halted).part 1).state = .halted) ∧
    (let s : State := { tenant with descs := List.replicate 4096 ⟨3, 1, hdr, 0x20, .running, .soRead hdr 16380, false⟩ }
     s.ownerOf hdr.port hdr.vlan hdr.owner = some 1 ∧ s.waitsFor hdr = [] ∧ 4096 ≤ s.accepted 1) := by decide +kernel

theorem witness_SegmentFaultMovesNothing :
    let m : MemOp := ⟨.basalt, 0, 8, 65529⟩
    startsAtOnce tenant hdr 1 ∧ memFormBad tenant hdr m = false ∧ 1 ≤ m.length ∧ m.length ≤ 8192 ∧ (zeros 8).length = m.length ∧
      tenant.windowsWait 1 = false ∧ (m.space = .scratch → tenant.holdsCluster 1 m.cluster = true) ∧
      (m.space = .global → tenant.siteRemote (siteOf m.addr) = false) ∧ tenant.access 1 m.space m.cluster m.addr m.length .write = false ∧
      tenant.access 1 m.space m.cluster m.addr m.length .read = false := by decide +kernel

theorem witness_DeviceMemory :
    (memRuns tenant hdr ⟨.basalt, 0, 8, 65528⟩ 1 .write true ∧ matrixReads tenant ⟨.basalt, 0, 8, 65528⟩ = false) ∧
    (memRuns tenant hdr ⟨.scratch, 0, 8192, 0⟩ 1 .read false ∧ matrixWrites tenant ⟨.scratch, 0, 8192, 0⟩ = false) ∧
    (memRuns tenant hdr ⟨.scratch, 0, 4, 0x7DFFFC⟩ 1 .atomic true ∧ 0x7DFFFC % 4 = 0 ∧
      matrixReads tenant ⟨.scratch, 0, 4, 0x7DFFFC⟩ = false ∧ matrixWrites tenant ⟨.scratch, 0, 4, 0x7DFFFC⟩ = false) := by decide +kernel

theorem witness_NodeOperationsLeave :
    let m : MemOp := ⟨.global, 0, 8192, globalAt 1 5 57344⟩
    (memRuns tenant hdr m 1 .read false ∧ tenant.siteRemote (siteOf m.addr) = false ∧
      pickFlow 1 (nodeOf m.addr) (tenant.part 1).candPairs = some (0, 10)) ∧
    (let s := tenant.updPart 1 (fun q => { q with candPairs := [] })
     memRuns s hdr m 1 .read false ∧ s.siteRemote (siteOf m.addr) = false ∧ (s.part 1).candPairs = []) := by decide +kernel

/-- The tenant's descriptor 3, a get of 4 octets, waits for node operation 9. -/
def asked : State :=
  { accepted1 (.memGet hdr ⟨.global, 0, 4, globalAt 1 5 0⟩) 0x11 with nodeOps := [⟨9, 1, 0x11, 4, .desc 3⟩] }

theorem witness_NodeAnswers :
    (asked.ownerOf (0 : LocalPort) 10 none = some 1 ∧ asked.nodeOps.find? (fun y => y.part == 1 && y.tag == 9) = some ⟨9, 1, 0x11, 4, .desc 3⟩ ∧
      (asked.desc 3).map Desc.opcode = some 0x11 ∧ alwaysCompletes 0x11 = true ∧ (zeros 4).length = 4) ∧
    (∀ o ∈ asked.nodeOps, o.part = 1 → o.tag ≠ 8) ∧
    asked.nodeOps.find? (fun y => y.tag == 9) = some ⟨9, 1, 0x11, 4, .desc 3⟩ := by decide +kernel

theorem witness_FencesHold :
    let h : DescHdr := { hdr with fence := true }
    let s : State := asked
    (s.resuming = none ∧ s.ownerOf h.port h.vlan h.owner = some 1 ∧ hdr.fence = false ∧ h.fence = true ∧ (s.part 1).state = .active ∧
      s.accepted 1 < 4096 ∧ s.waitsFor h ≠ []) ∧
    (let t : State := { tenant with descs := [⟨4, 1, h, 0x20, .fence [3], .soRead h 16380, false⟩] }
     (t.desc 4).map Desc.hold = some (.fence [3]) ∧ ∀ k ∈ [3], t.desc k = none) := by decide +kernel

theorem witness_LinkCredit :
    (tenant.port (0 : LocalPort)).linkUp = true ∧ serialDiff 32 (2 ^ 31) (tenant.port (0 : LocalPort)).consumed ≤ 2 ^ 31 ∧
      2 ^ 31 < serialDiff 32 (2 ^ 31 + 1) (tenant.port (0 : LocalPort)).consumed ∧ (tenant.port (1 : LocalPort)).linkUp = false := by
  decide +kernel

theorem witness_LinksComeAndGo :
    let s := tenant.updPort 0 (fun q => { q with linkUp := false })
    s.portUp (0 : LocalPort) = true ∧ (s.port (0 : LocalPort)).linkUp = false ∧ s.conf.portOf (0 : LocalPort) = some ⟨0, true, false, 0, 0, 64⟩ ∧
      (∀ i ∈ s.sw.items, ∀ o ∈ i.outs, o.1 ≠ 0) := by decide +kernel

/-- A sync READ from the tenant's node, as it stands on the wire. -/
def readFrame : Octets :=
  ethBytes 0x02D000000000 1 (some (0, 10)) 0x88B5 (yuvBytes 1 0x20 1 7 0 (beBytes 2 16383 ++ [4] ++ zeros 13))

theorem witness_FramesReceived :
    (let x := zeros 64
     tenant.resuming = none ∧ (tenant.port (0 : LocalPort)).linkUp = true ∧ 64 ≤ x.length ∧ fcsOk x = false ∧ tenant.ctr (.rx 0 0) < 0xFFFFFFFE) ∧
    (let x := creditFrame 0 5
     64 ≤ x.length ∧ x.length ≤ 9216 ∧ fcsOk x = true ∧ (ethFrame x).tag = none ∧ (ethFrame x).etype = 0x88B5 ∧
       octetAt 1 (ethFrame x).body = 3) ∧
    (let x := readFrame
     (tenant.port (0 : LocalPort)).inRx = false ∧ tenant.partGone 1 = false ∧ 64 ≤ x.length ∧ x.length ≤ 9216 ∧ fcsOk x = true ∧
       (ethFrame x).tag = some (0, 10) ∧ (ethFrame x).etype = 0x88B5 ∧
       tenant.mapped (0 : LocalPort) 10 = some 1 ∧ ((tenant.conf.portOf (0 : LocalPort)).map PortRec.snare).getD 0 = 0 ∧
       octetAt 0 (ethFrame x).body = 1 ∧ octetAt 1 (ethFrame x).body = 1 ∧
       parseDescriptor { descHdr 0 10 (Fin.ofNat 8 0) (ethFrame x).src (ethFrame x).body with units := unitsOf x.length, owner := some 1 }
         (ethFrame x).body = some (.soRead { hdr with units := 1, owner := some 1 } 16383)) := by decide +kernel

/-! ### Steps, counters, peals -/

/-- The tenant waits at a STEP_END under descriptor 3. -/
def ending : State := (accepted1 (.stepEnd hdr 0) 0x40).updPart 1 (fun q => { q with stepEnd := some 3 })

theorem witness_Steps :
    (startsAtOnce tenant hdr (1 : PartId) ∧ tenant.stepReady 1 = true) ∧
    (ending.resuming = none ∧ ending.ownerOf hdr.port hdr.vlan hdr.owner = some 1 ∧ (ending.part 1).state = .active ∧ ending.waitsFor hdr = [] ∧
      ending.accepted 1 < 4096 ∧ (ending.part 1).stepEnd ≠ none ∧ 1 ≠ (tenant.part 1).step) ∧
    ((ending.part (1 : PartId)).stepEnd = some 3 ∧ (ending.part (1 : PartId)).inStep = false ∧ ending.stepReady (1 : PartId) = true ∧
      (ending.part (1 : PartId)).reload = none ∧ ending.mirrorOf (1 : PartId) = none ∧ (ending.desc 3).map Desc.opcode = some 0x40 ∧
      (∀ g ∈ ending.groups, g.part = 1 → g.staged = none) ∧ ∀ k ∈ ending.keys.slots, k.part = 1 → k.staged = none) := by decide +kernel

theorem witness_CountersAndHints :
    (startsAtOnce tenant hdr 1 ∧ descsFresh tenant ∧ tenant.counterCheck 1 1 1536 1024 = none) ∧
    (∀ k ∈ (tenant.setSize 1 1).toList, k < 1537 + 1024) ∧ tenant.setSize 1 0 = none ∧
    tenant.now < 0 * 1000000000 + 1 := by decide +kernel

/-- An ordered group of two local members over axis 2 on slice 0. -/
def ordGroup : GroupDef :=
  { group := 0, axisCount := 1, axisMask := 4, mode := 1, policy := 1, axisOrder := [2, 0, 0, 0, 0, 0], w := 48, p := 0,
    low := zeroAxes, high := [0, 0, 1, 0, 0, 0], stride := List.replicate 6 1, slice := 0, deadline := 1000, quorumMin := 0, proj := 0xFFFF }
where zeroAxes := List.replicate 6 0

/-- An exact group over sites 1 and 2 with two members at each. -/
def siteGroup : GroupDef :=
  { ordGroup with group := 1, axisCount := 2, axisMask := 5, axisOrder := [0, 2, 0, 0, 0, 0], mode := 2, low := [1, 0, 0, 0, 0, 0],
                  high := [2, 0, 1, 0, 0, 0] }

/-- The tenant with both groups defined, its slot 64 given a KEYBLOB. -/
def grouped : State :=
  { tenant with groups := [Group.fresh 1 ordGroup true, Group.fresh 1 siteGroup true],
                conf := { tenantConf with blobs := [⟨64, 0, 1, 2 ^ 32, 1, zeros 40⟩] } }

theorem witness_GroupsDefined :
    (startsAtOnce tenant hdr 1 ∧ descsFresh tenant ∧ groupFieldsOk ordGroup = true ∧ tenant.defineForm 1 ordGroup = none ∧
      tenant.defineCheck 1 ordGroup = none ∧
      tenant.group 1 0 = none) ∧
    (startsAtOnce grouped hdr 1 ∧ descsFresh grouped ∧ groupFieldsOk siteGroup = true ∧ grouped.defineForm 1 siteGroup = none ∧
      grouped.defineCheck 1 siteGroup = none ∧
      (grouped.group 1 1).isSome = true) ∧
    (grouped.conf.partOf 1 = some tenantRec ∧ tenantRec.hasGroup 1 = true ∧ tenantRec.hasGroup 3 = true ∧ grouped.group 1 3 = none) ∧
    (let s : State := { tenant with groups := [Group.fresh 1 { ordGroup with high := [0, 0, 63, 0, 0, 0] } true] }
     startsAtOnce s hdr 1 ∧ descsFresh s ∧ s.statusCheck 1 ⟨0, 0, 0, 64⟩ = none) := by decide +kernel

/-- The start of an ALL_REDUCE of 4,097 elements by a member. -/
def allReduce (group : Nat) (coord : List Nat) : PealStart :=
  { group := group, kind := .allReduce, inFmt := .fp32, outFmt := .fp32, strict := false, addSync := false, peal := 0, count := 4097,
    root := 0, coord := coord, sync := 0, src := globalAt 1 5 0, dst := globalAt 1 5 32768, syncAmount := 0 }

/-- A member of a peal under a descriptor. -/
def member (rank desc : Nat) (b : PealStart) : PealMember := ⟨rank, desc, b.coord, b.src, b.dst, b.addSync, b.sync, b.syncAmount, 0⟩

/-- Peal 0 of a group with its first local member started under descriptor 3. -/
def openPeal (b : PealStart) : Peal := { Peal.fresh 0 with first := some (b, 16, 0), members := [member 0 3 b] }

/-- Peal 0 of a group whose cut holds both local members, started under descriptors 3 and 4. -/
def runningPeal (b : PealStart) (st : PealState) : Peal :=
  { Peal.fresh 0 with state := st, first := some (b, 16, 0), members := [member 0 3 b, member 1 4 b], cut := some [0, 1], total := 2 }

/-- The tenant with a peal open in a group; the descriptors of its members are accepted. -/
def withPeal (group : Nat) (pl : Peal) : State :=
  { grouped.updGroup 1 group (fun g => { g with peals := [pl] }) with
    descs := [3, 4].map (fun i => ⟨i, 1, hdr, 0x01, .running, .pealStart hdr (allReduce group [0, 0, 0, 0, 0, 0]), true⟩) }

/-- The start by the second member of each group. -/
def second (group : Nat) : PealStart := allReduce group [group, 0, 1, 0, 0, 0]

theorem witness_PealsStart :
    (let b := second 0
     startsAtOnce grouped { hdr with stream := 16 } 1 ∧ descsFresh grouped ∧ State.pealFormBad b = false ∧ grouped.pealCheck 1 16 b = none ∧
       grouped.windowsWait 1 = false ∧ grouped.group 1 0 = some (Group.fresh 1 ordGroup true) ∧ grouped.peal 1 0 0 = none ∧
       (grouped.sliceOf 0).closed = false ∧ 1 < localCount ordGroup ∧ grouped.failedNeighbour 1 ordGroup 16 = none) ∧
    ∀ g ∈ [ordGroup, siteGroup],
      let b := second g.group
      let pl := openPeal (allReduce g.group [g.group, 0, 0, 0, 0, 0])
      let s := withPeal g.group pl
      startsAtOnce s { hdr with stream := 16 } 1 ∧ descsFresh s ∧ State.pealFormBad b = false ∧ s.pealCheck 1 16 b = none ∧
        s.windowsWait 1 = false ∧ s.peal 1 g.group 0 = some pl ∧ pl.cut = none ∧ pl.chunks = [] ∧ pl.members.length + 1 = localCount g ∧
        isReduce b.kind = true ∧ s.failedNeighbour 1 g 16 = none := by decide +kernel

/-- A message of the site group's peal 0 from the other site. -/
def msg (chunk length : Nat) (payload : Octets) (st : Status) : CarMsg :=
  { stream := 17, site := 2, group := 1, fingerprint := fingerprint siteGroup, peal := 0, chunk := chunk, sender := 1, contributors := 2,
    length := length, offset := 0, status := st, payload := payload }

/-- The site group's peal 0 runs with both local members. -/
def running (st : PealState) : State := withPeal 1 (runningPeal (second 1) st)

theorem witness_PealsFail :
    (let s := withPeal 0 (openPeal (second 0))
     (s.group (1 : PartId) 0).isSome = true ∧ s.peal (1 : PartId) 0 0 = some (openPeal (second 0)) ∧ (openPeal (second 0)).state = .open ∧
       ordGroup.policy ≠ 2) ∧
    ((running .reducing).peal (1 : PartId) 1 0 = some (runningPeal (second 1) .reducing) ∧
      (running .reducing).missingRemote (1 : PartId) 1 0 = true) ∧
    (let s := withPeal 0 (runningPeal (second 0) .reducing)
     (∀ pl ∈ (s.peal (1 : PartId) 0 0).toList, ∀ c ∈ pl.chunks, c.lost = false) ∧ s.missingRemote (1 : PartId) 0 0 = false) ∧
    (((running .reducing).msgGroup (1 : PartId) (msg 0 0 [] .timeout) true).isSome = true ∧ (msg 0 0 [] .timeout).status ≠ .ok) ∧
    (let s := grouped.updGroup 1 1 (fun g => { g with retained := [⟨0, .ok, 4, false, [0, 1]⟩] })
     (s.msgGroup (1 : PartId) (msg 0 0 [] .timeout) true).map Group.peals = some [] ∧
       ((s.msgGroup (1 : PartId) (msg 0 0 [] .timeout) true).map (fun g => g.retained.map Retained.number)) = some [0]) ∧
    tenant.msgGroup (1 : PartId) (msg 0 0 [] .timeout) true = none := by decide +kernel

/-- A read or a write of a peal that has been answered. -/
def endedXfer (use : XferUse) (st : Status) (data : Octets) : Xfer :=
  { id := 0, part := 1, use := use, read := true, length := data.length, writer := .carillonDma 0 0, left := [], data := data, status := st }

/-- The ordered group's peal 0 runs, and a transfer of it has been answered. -/
def answeredXfer (use : XferUse) (st : Status) (data : Octets) (pl : Peal) : State :=
  { withPeal 0 pl with xfers := [endedXfer use st data] }

theorem witness_ChunkInputs_Read :
    let pl := runningPeal (second 0) .reducing
     let x := zeros 4
     let s := answeredXfer (.contribution 1 0 0 1 1 false) .ok x pl
     (s.takeXfer (.contribution (1 : PartId) 0 0 1 1 false)).isSome = true ∧ s.flow (1 : PartId) 0 0 = some (ordGroup, pl, second 0, 0) ∧
       isReduce (second 0).kind = true ∧ exactPeal ordGroup (second 0) = false ∧ hasProj ordGroup = false ∧ (chunkOf pl 1).lost = false ∧
       (∀ q ∈ (chunkOf pl 1).locals, q.1 ≠ 1) ∧
       (∃ q ∈ readersOf ordGroup (second 0) 0 pl, q ≠ 1 ∧ ∀ y ∈ (chunkOf pl 1).locals, y.1 ≠ q) ∧
       ∀ e ∈ readElems ordGroup (second 0) [] (elemsOf .fp32 (chunkLen 4097 1) x), e.trap = none := by
  decide +kernel

theorem witness_ChunkInputs_Child :
    let pl := runningPeal (second 1) .agreeing
     let s := running .agreeing
     let m := msg 1 1 (zeros 1) .ok
     (s.msgGroup (1 : PartId) m false).isSome = true ∧ s.flow (1 : PartId) 1 0 = some (siteGroup, pl, second 1, 0) ∧ pl.cut ≠ none ∧
       hasProj siteGroup = false ∧ m.chunk < chunkCount 4097 ∧ exactPeal siteGroup (second 1) = true ∧ State.isChild siteGroup 0 m = true ∧
       m.offset = 0 ∧ m.length = ceilDiv (chunkLen 4097 1) 64 ∧ (chunkOf pl 1).agreed = none ∧
       (∃ r ∈ readersOf siteGroup (second 1) 0 pl, r ∉ (chunkOf pl 1).expLocal) ∧ ∀ q ∈ (chunkOf pl 1).expChildren, q.1 ≠ m.sender := by
  decide +kernel

theorem witness_ChunkInputs_Twice :
    let pl := putChunk (runningPeal (second 1) .agreeing) { PealChunk.fresh 1 with expChildren := [(1, 2, [0])] }
     let m := msg 1 1 (zeros 1) .ok
     ((withPeal 1 pl).msgGroup (1 : PartId) m false).isSome = true ∧ (withPeal 1 pl).flow (1 : PartId) 1 0 = some (siteGroup, pl, second 1, 0) ∧
       ∃ q ∈ (chunkOf pl 1).expChildren, q.1 = m.sender := by
  decide +kernel

theorem witness_ChunkInputs_Partial :
    let pl := runningPeal (second 1) .reducing
     let n := pealPartial siteGroup (second 1)
     let m := msg 1 n (zeros n) .ok
     ((running .reducing).msgGroup (1 : PartId) m false).isSome = true ∧
       (running .reducing).flow (1 : PartId) 1 0 = some (siteGroup, pl, second 1, 0) ∧ pl.cut ≠ none ∧ hasProj siteGroup = false ∧
       m.chunk < chunkCount 4097 ∧ isReduce (second 1).kind = true ∧ State.isChild siteGroup 0 m = true ∧ m.offset = 0 ∧ 0 < n ∧
       m.length = chunkLen 4097 1 * n ∧ (∃ r ∈ readersOf siteGroup (second 1) 0 pl, r ∉ (chunkOf pl 1).expLocal) ∧
       (∀ q ∈ (chunkOf pl 1).children, q.1 ≠ 1) ∧ 1 ∉ (chunkOf pl 1).childrenDone ∧
       ∃ r ∈ readersOf siteGroup (second 1) 0 pl, ∀ y ∈ (chunkOf pl 1).locals, y.1 ≠ r := by
  decide +kernel

theorem witness_ChunkInputs_Agreed :
    let pl := runningPeal (second 1) .agreeing
     let m := msg 0 64 (zeros 64) .ok
     ((running .agreeing).msgGroup (1 : PartId) m false).isSome = true ∧
       (running .agreeing).flow (1 : PartId) 1 0 = some (siteGroup, pl, second 1, 0) ∧ exactPeal siteGroup (second 1) = true ∧
       State.isParent siteGroup 0 m = true ∧ m.offset = 0 ∧ m.length = ceilDiv (chunkLen 4097 0) 64 ∧ (chunkOf pl 0).agreed = none ∧
       (chunkOf pl 0).lost = false ∧ childRanks (siteCount siteGroup) (chunkTree 0) 0 = [] ∧
       ∃ r ∈ readersOf siteGroup (second 1) 0 pl, ∀ y ∈ (chunkOf pl 0).locals, y.1 ≠ r := by
  decide +kernel

theorem witness_ChunkInputs_Result :
    let pl := runningPeal (second 1) .reducing
     let m := msg 0 16384 (zeros 16384) .ok
     ((running .reducing).msgGroup (1 : PartId) m false).isSome = true ∧
       (running .reducing).flow (1 : PartId) 1 0 = some (siteGroup, pl, second 1, 0) ∧ (second 1).kind = .allReduce ∧
       State.isParent siteGroup 0 m = true ∧ m.offset = 0 ∧ (chunkOf pl 0).down = [] ∧ 0 < m.length ∧
         m.length = chunkLen 4097 0 * Fmt.fp32.size ∧ (chunkOf pl 0).result = none ∧ pl.members ≠ [] ∧
       (pl.chunks.filter (fun x => x.number != 0)).length < chunkCount 4097 := by
  decide +kernel

/-- The start of an ALL_REDUCE of one element. -/
def small : PealStart := { second 0 with count := 1 }

/-- Its peal, with the result of chunk 0 known and the given writes not ended. -/
def delivering (writing : List Nat) : Peal :=
  putChunk (runningPeal small .delivering) { PealChunk.fresh 0 with result := some [(0, [some 0])], written := [0, 1], writing := writing }

theorem witness_ChunkInputs_Write :
    let pl := delivering [0, 1]
    let s := answeredXfer (.result 1 0 0 0 1) .ok [] pl
    (s.xfers.find? (fun y => y.use == .result (1 : PartId) 0 0 0 1 && y.left.isEmpty)).map Xfer.status = some .ok ∧
      s.flow (1 : PartId) 0 0 = some (ordGroup, pl, small, 0) ∧ 0 ≠ 1 ∧ 0 ∈ (chunkOf pl 0).writing ∧
      (pl.chunks.filter (fun y => y.number != 0)).length < chunkCount small.count := by decide +kernel

theorem witness_PealsEnd :
    (let s := answeredXfer (.contribution 1 0 0 0 0 true) .timeout [] (runningPeal (second 0) .reducing)
     (s.takeXfer (.contribution (1 : PartId) 0 0 0 0 true)).map (fun r => r.1.status) = some .timeout ∧ (s.peal (1 : PartId) 0 0).isSome = true) ∧
    (let s := answeredXfer (.result 1 0 0 0 1) .timeout [] (delivering [1])
     (s.takeXfer (.result (1 : PartId) 0 0 0 1)).map (fun r => r.1.status) = some .timeout ∧ (s.peal (1 : PartId) 0 0).isSome = true) ∧
    (let pl := delivering [1]
     let s := answeredXfer (.result 1 0 0 0 1) .ok [] pl
     (s.takeXfer (.result (1 : PartId) 0 0 0 1)).map (fun r => r.1.status) = some .ok ∧ s.flow (1 : PartId) 0 0 = some (ordGroup, pl, small, 0) ∧
       hasProj ordGroup = false ∧ chunkCount small.count = 1 ∧ pl.chunks = [chunkOf pl 0] ∧ (chunkOf pl 0).number = 0 ∧
       (chunkOf pl 0).result ≠ none ∧ (∀ q ∈ (chunkOf pl 0).writing, q = 1) ∧ pl.poisoned = false ∧ pl.saturated = false ∧
       ∀ m ∈ pl.members, m.addSync = false) ∧
    (let pl := delivering [0, 1]
     let s := answeredXfer (.result 1 0 0 0 1) .ok [] pl
     (s.takeXfer (.result (1 : PartId) 0 0 0 1)).map (fun r => r.1.status) = some .ok ∧ s.flow (1 : PartId) 0 0 = some (ordGroup, pl, small, 0) ∧
       (∃ q ∈ (chunkOf pl 0).writing, q ≠ 1) ∧ (pl.chunks.filter (fun y => y.number != 0)).length < chunkCount small.count) := by decide +kernel

/-! ### Programs and cores -/

/-- A public key: that of the private scalar 1. -/
def pubKey : Octets := p384Encode p384G

/-- A BEGIN for a program of 4 octets of text and 8 of data. -/
def begin0 : ProgBegin :=
  { index := 0, clusters := 1, cores := 2, entry := 0, textLen := 4, dataLen := 8, watchdog := 1000, pubKey := pubKey }

/-- The record of a tenant whose programs that key signs. -/
def signerRec : PartRec := { tenantRec with progKeyHash := sha384 pubKey }

/-- The tenant with a load open that has these octets, and no program. -/
def loading (x : Octets) : State :=
  { tenant with conf := { tenantConf with parts := [signerRec] } }.updPart 1 (fun q => { q with load := some ⟨begin0, x⟩ })

/-- The image of a program of two cores. -/
def image (text data : Octets) : ProgImage :=
  { part := 1, index := 0, clusters := 1, cores := 2, entry := 0, watchdog := 1000, text := text, data := data, load := 0 }

theorem witness_ProgramLoads :
    (startsAtOnce tenant hdr (1 : PartId) ∧ descsFresh tenant ∧ beginBad begin0 = false ∧ tenant.beginCheck (1 : PartId) begin0 = none) ∧
    (let s := loading []
     startsAtOnce s hdr (1 : PartId) ∧ descsFresh s ∧ (s.part (1 : PartId)).load = some ⟨begin0, []⟩ ∧ begin0.index < 256 ∧
       1 ≤ (zeros 12).length ∧ (zeros 12).length ≤ 8192 ∧ 0 + (zeros 12).length ≤ begin0.textLen + begin0.dataLen) ∧
    (let s := loading (zeros 12)
     let sig := ecdsaSign 1 1 (beginOctets begin0 ++ zeros 12)
     startsAtOnce s hdr (1 : PartId) ∧ descsFresh s ∧ (s.part (1 : PartId)).load = some ⟨begin0, zeros 12⟩ ∧ sig.length = 96 ∧
       s.conf.partOf (1 : PartId) = some signerRec ∧ sha384 begin0.pubKey = signerRec.progKeyHash ∧ s.prog 1 0 = none ∧
       ecdsaVerify begin0.pubKey (beginOctets begin0 ++ zeros 12) sig = true ∧ (zeros 96).length = 96 ∧
       ecdsaVerify begin0.pubKey (beginOctets begin0 ++ zeros 12) (zeros 96) = false ∧
       ({ s with progs := [image [] []] } : State).prog 1 0 ≠ none) ∧
    (let s := tenant.updPart 1 (fun q => { q with stagedProgs := [(image [] [], true)] })
     (s.part (1 : PartId)).stagedProgs.find? (fun x => x.1.index == 0) = some (image [] [], true) ∧ (image [] []).part = (1 : PartId).val ∧
       ∀ v ∈ s.invs, v.part = (1 : PartId).val → v.index ≠ 0) := by decide +kernel

/-- Arguments with a0 at the start of data memory. -/
def args0 : List Word64 := 0x00100000 :: List.replicate 7 0

/-- An invocation of the tenant's program on cores 0 and 1, sent with descriptor 3. -/
def invoked (text data : Octets) : Invocation :=
  { id := 0, part := 1, number := 5, index := 0, cluster := 0, image := image text data, args := args0, purpose := .desc 3, addSync := false,
    sync := 0, syncAmount := 0, cores := [0, 1], ended := none, status := .ok, core := 0, exit := 0, mcause := 0, mepc := 0, mtval := 0,
    flags := .none, poisoned := false, trap := none, wrote := [] }

/-- The body of that PROG_INVOKE. -/
def invoke0 : ProgInvoke := { index := 0, cluster := 0, addSync := false, sync := 0, syncAmount := 0, args := args0 }

/-- The tenant with an invocation. -/
def withInv (v : Invocation) : State :=
  { accepted1 (.progInvoke hdr invoke0) 0x31 with invs := [v], nextInv := 1, progs := [image [] []] }

/-- The tenant with the invocation running on its two cores. -/
def runningOn (text data : Octets) : State :=
  ((withInv (invoked text data)).updCore 0 (coreStart (invoked text data) 0)).updCore 1 (coreStart (invoked text data) 1)

/-- One instruction of 32 bits. -/
def code (w : Nat) : State := runningOn (leBytes 4 w) []

theorem witness_Invocations :
    (let s : State := { tenant with progs := [image [] []] }
     startsAtOnce s hdr (1 : PartId) ∧ descsFresh s ∧ invoke0.index < 256 ∧ invoke0.cluster = (0 : ClusterId).val ∧ invoke0.sync < 16384 ∧
       invoke0.args.length = 8 ∧ s.invokeCheck (1 : PartId) invoke0 = none ∧ s.prog (1 : PartId) invoke0.index = some (image [] [])) ∧
    (let v := { invoked [] [] with cores := [] }
     let s := (withInv v).updCluster 0 (fun c => { c with waiting := [0] })
     (s.cluster (0 : ClusterId)).waiting.head?.bind s.inv = some v ∧ s.clusterReady (0 : ClusterId) = true ∧
       v.image.cores ≤ (s.freeCores (0 : ClusterId)).length ∧ ((s.freeCores (0 : ClusterId)).take v.image.cores)[1]? = some 1) ∧
    (let v := { invoked [] [] with ended := some .exit }
     let s := withInv v
     s.inv 0 = some v ∧ v.ended = some .exit ∧ s.workLeft 0 = false ∧ v.purpose = .desc 3 ∧ v.addSync = false ∧
       (s.desc 3).map Desc.opcode = some 0x31) := by decide +kernel

/-- An ordered group over sites 1 and 2. -/
def projGroup : GroupDef := { siteGroup with mode := 1, proj := 0 }

/-- Its peal, which waits for its child's partial and its own projected vector. -/
def projPeal : Peal := putChunk (runningPeal (second 1) .reducing) { PealChunk.fresh 1 with projIn := some [0], projRole := some 0 }

/-- The tenant with the projection of chunk 1 of that peal ended. -/
def projected (e : InvEnd) : State :=
  { withInv { invoked [] [] with
      purpose := .projection 1 0 1 0 0, cores := [], ended := some e, exit := 1, args := [0, 65536] ++ List.replicate 5 0 ++ [4096] } with
    groups := [{ Group.fresh 1 projGroup true with peals := [projPeal] }],
    conf := { tenantConf with windows := [win 0 1 0 (globalAt 1 5 0) (globalAt 1 5 65536), win 1 2 0 0 0x800000, win 2 3 0 0 65536] } }

theorem witness_Invocations_Projection :
    let s := projected .exit
    let v := (s.inv 0).getD default
    s.inv 0 = some v ∧ 0 < s.nextInv ∧ v.purpose = .projection 1 0 1 0 0 ∧ v.ended ≠ none ∧ v.cores = [] := by decide +kernel

theorem witness_WatchdogAndProjection :
    (let s := code 0
     s.invOf (0 : CoreId) = some (invoked (zeros 4) []) ∧ (s.core (0 : CoreId)).running = true ∧ (invoked (zeros 4) []).ended = none) ∧
    (let s := projected .watchdog
     (s.inv 0).map (fun v => (v.purpose, v.ended, v.cores)) = some (.projection 1 0 1 0 0, some .watchdog, []) ∧
       (s.flow 1 1 0).isSome = true) ∧
    (let s := projected .exit
     let v := (s.inv 0).getD default
     let b := second 1
     (s.inv 0).map (fun v => (v.purpose, v.ended, v.cores)) = some (.projection 1 0 1 0 0, some .exit, []) ∧
       s.flow v.part 1 0 = some (projGroup, projPeal, b, 0) ∧ 1 ≤ v.exit.toNat ∧ v.exit.toNat ≤ (v.args.getD 7 0).toNat ∧
       exactPeal projGroup b = false ∧ fmtOfCode ((v.args.getD 1 0).toNat / 65536 % 256) = some b.inFmt ∧
       s.access v.part .scratch v.cluster (0x7E0000 + 0x8000 * 0 + 0x4000) (v.exit.toNat * b.inFmt.size) .read = true ∧
       s.projWaiting v.part = [] ∧
       (∃ k ∈ childRanks (siteCount projGroup) (chunkTree 1) 0, k ∉ (chunkOf projPeal 1).childrenDone) ∧
       ∀ x ∈ s.groups, ∀ q ∈ x.peals, ∀ y ∈ q.chunks, y.projRole ≠ none → y.result = none) := by decide +kernel

theorem witness_CoreInstructions :
    fetches (code 0x00100293) (0 : CoreId) 4 (.aluImm .add false 5 0 1) ∧ fetches (code 0x007302B3) (0 : CoreId) 4 (.alu .add false 5 6 7) ∧
    fetches (code 0x800002B7) (0 : CoreId) 4 (.lui 5 (-2147483648)) ∧ fetches (code 0x008000EF) (0 : CoreId) 4 (.jal 1 8) ∧
    fetches (code 0x00000463) (0 : CoreId) 4 (.branch 0 0 0 8) ∧
    (let s := code 0x00052283
     let a := addrOf ((s.core (0 : CoreId)).reg 10) 0
     fetches s (0 : CoreId) 4 (.load 2 5 10 0) ∧ a % accessWidth 2 = 0 ∧ dmemBase ≤ a ∧ a + accessWidth 2 ≤ dmemEnd) ∧
    (let s := code 0x00552023
     let a := addrOf ((s.core (0 : CoreId)).reg 10) 0
     fetches s (0 : CoreId) 4 (.store 2 10 5 0) ∧ a % accessWidth 2 = 0 ∧ dmemBase ≤ a ∧ a + accessWidth 2 ≤ dmemEnd) := by decide +kernel

theorem witness_CoresEnd :
    (fetches (code 0) (0 : CoreId) 2 .illegal ∧ (code 0).invOf (0 : CoreId) = some (invoked (zeros 4) [])) ∧
    (let s := code 0x00152283
     let a := addrOf ((s.core (0 : CoreId)).reg 10) 1
     fetches s (0 : CoreId) 4 (.load 2 5 10 1) ∧ (s.invOf (0 : CoreId)).map Invocation.ended = some none ∧ a % accessWidth 2 ≠ 0) ∧
    (let s := (code 0).updCore 1 (fun c => { c with running := false })
     let v := (s.invOf (0 : CoreId)).getD default
     s.coreReady (0 : CoreId) = true ∧ s.invOf (0 : CoreId) = some v ∧ v.ended = none ∧
       ∀ j ∈ v.cores, j % 256 ≠ (0 : CoreId).val → (s.core j).running = false) ∧
    (let s := code 0
     let v := (s.invOf (0 : CoreId)).getD default
     s.coreReady (0 : CoreId) = true ∧ s.invOf (0 : CoreId) = some v ∧ ∃ j ∈ v.cores, j % 256 ≠ (0 : CoreId).val ∧ (s.core j).running = true) ∧
    ((code 0).core (0 : CoreId)).running = true ∧ ((code 0).invOf (0 : CoreId)).map Invocation.ended = some none := by decide +kernel

theorem witness_RegisterWrites :
    (0x7BF < 0x7C0 ∨ 0x7BF = 0x7D1 ∨ 0x7D3 ≤ 0x7BF) ∧ ((0x7D3 : Nat) < 0x7C0 ∨ 0x7D3 = 0x7D1 ∨ 0x7D3 ≤ 0x7D3) ∧
    (0x1000000 ≤ 0x1FFFFFC ∧ 0x1FFFFFC + 4 ≤ 0x2000000) ∧ 0xFFFFFC ≠ 0x1010 ∧ 0xFFFFFC < 0x1000000 ∧ 0x2000000 < 0x1FFFFFD + 4 := by
  decide

/-- A core's stream windows: i is of 4 int8 elements at 64·i, rd of 1 is at 0. -/
def streaming (q : List StreamJob) : State :=
  ((code 0).updCore 0 (fun c => { c with windows := Vector.ofFn (fun i => BitVec.ofNat 64 (6 * 2 ^ 56 + 4 * 2 ^ 24 + 64 * i.val)) })).updCluster 0
    (fun c => { c with streamQ := q })

/-- The window register i of that core, read. -/
def swin (i : Nat) : SWin := ⟨.int8, 4, 64 * i⟩

theorem ready_of (s : State) (op : StreamOp) (f : StreamFields) (v : Invocation) (d a : SWin) (b : Option SWin)
    (h : s.coreReady (0 : CoreId) = true ∧ s.invOf (0 : CoreId) = some v ∧ (s.cluster v.cluster).faulty = false ∧
      s.windowsWait v.part = false ∧ (s.cluster v.cluster).streamQ.length < 32 ∧
      streamForm op f (fun i => (s.core (0 : CoreId)).windows.toList.getD i 0) = some (d, a, b) ∧
      (streamSources op a b).all (s.windowOk v .read) = true ∧ (streamDests op d b).all (s.windowOk v .write) = true) :
    streamReady s (0 : CoreId) op f v :=
  ⟨h.1, h.2.1, h.2.2.1, h.2.2.2.1, h.2.2.2.2.1, d, a, b, h.2.2.2.2.2⟩

/-- The stream instruction of these windows. -/
def job (op : StreamOp) : StreamJob :=
  let w (i : Nat) : Word64 := BitVec.ofNat 64 (6 * 2 ^ 56 + 4 * 2 ^ 24 + 64 * i)
  ⟨0, 0, op, false, 0, w 3, w 1, w 2, 0⟩

theorem witness_StreamsIssued :
    streamReady (streaming []) (0 : CoreId) .ssum ⟨false, 0, 0, 1, 3⟩ (invoked (zeros 4) []) ∧
    streamReady (streaming []) (0 : CoreId) .smap ⟨false, 1, 2, 1, 3⟩ (invoked (zeros 4) []) ∧
    streamReady (streaming []) (0 : CoreId) .sscan ⟨false, 0, 0, 1, 3⟩ (invoked (zeros 4) []) ∧
    streamReady (streaming []) (0 : CoreId) .ssort ⟨false, 1, 0, 1, 3⟩ (invoked (zeros 4) []) ∧
    streamReady (streaming []) (0 : CoreId) .smerge ⟨false, 0, 2, 1, 3⟩ (invoked (zeros 4) []) ∧
    ((streaming []).coreReady (0 : CoreId) = true ∧ ∀ j ∈ ((streaming []).cluster ((0 : CoreId).val / 16)).streamQ, j.core ≠ (0 : CoreId).val) ∧
    (∃ j ∈ ((streaming [job .ssum]).cluster ((0 : CoreId).val / 16)).streamQ, j.core = (0 : CoreId).val) :=
  ⟨ready_of _ _ _ _ (swin 3) (swin 1) none (by decide +kernel), ready_of _ _ _ _ (swin 3) (swin 1) (some (swin 2)) (by decide +kernel),
   ready_of _ _ _ _ (swin 3) (swin 1) none (by decide +kernel), ready_of _ _ _ _ (swin 3) (swin 1) none (by decide +kernel),
   ready_of _ _ _ _ (swin 3) (swin 1) (some (swin 2)) (by decide +kernel), by decide +kernel, by decide +kernel⟩

/-- The same core with window 2 of another format. -/
def picking (fmtCode : Nat) : State :=
  (streaming []).updCore 0 (fun c => { c with windows := c.windows.set 2 (BitVec.ofNat 64 (fmtCode * 2 ^ 56 + 4 * 2 ^ 24 + 128)) })

theorem witness_StreamsIssued_Index :
    streamReady (picking 8) (0 : CoreId) .sgather ⟨false, 0, 2, 1, 3⟩ (invoked (zeros 4) []) ∧
    streamReady (picking 9) (0 : CoreId) .sfilter ⟨false, 0, 2, 1, 3⟩ (invoked (zeros 4) []) :=
  ⟨ready_of _ _ _ _ (swin 3) (swin 1) (some ⟨.uint32, 4, 128⟩) (by decide +kernel),
   ready_of _ _ _ _ (swin 3) (swin 1) (some ⟨.uint8, 4, 128⟩) (by decide +kernel)⟩

theorem witness_StreamResults :
    let s := streaming [job .smerge]
    let v := (s.inv 0).getD default
    (s.cluster (0 : ClusterId)).streamQ = job .smerge :: [] ∧ s.inv (job .smerge).inv = some v ∧ v.ended = none ∧
      winOf (job .smerge).rd = some (swin 3) ∧ winOf (job .smerge).rs1 = some (swin 1) ∧
      (if streamUsesRs2 (job .smerge).op (job .smerge).modifier then winOf (job .smerge).rs2 else none) = some (swin 2) ∧
      streamClash .smerge (streamDests .smerge (swin 3) (some (swin 2))) (streamSources .smerge (swin 1) (some (swin 2))) = false ∧
      noMatrixOpen s ∧ (streamCompute (job .smerge) (swin 3) (swin 1) (some (swin 2)) [0, 0, 0, 0] [0, 0, 0, 0]).trap = none ∧
      elemsOf (swin 1).fmt (swin 1).count (s.readLocal .scratch (0 : ClusterId) (swin 1).base (swin 1).length) = [0, 0, 0, 0] := by
  decide +kernel

/-- A DMA block from scratch to Basalt at an address. -/
def dmaFrom (dst : Nat) : Octets := [1, 0, 2, 0] ++ leBytes 4 8 ++ leBytes 8 0 ++ leBytes 8 dst ++ leBytes 4 0 ++ zeros 4

/-- A running core with a block at the address that a0 holds. -/
def withBlock (x : Octets) : State := runningOn (zeros 4) x

theorem witness_DmaTransfers :
    (let s := withBlock (dmaFrom 65528)
     let a := ((s.core (0 : CoreId)).reg (10 : Fin 32)).toNat
     let v := (s.invOf (0 : CoreId)).getD default
     s.coreReady (0 : CoreId) = true ∧ s.invOf (0 : CoreId) = some v ∧ a % 8 = 0 ∧ dmemBase ≤ a ∧ a + 32 ≤ dmemEnd ∧
       s.windowsWait v.part = false ∧ openTickets (s.core (0 : CoreId)).dmaTickets < 16 ∧
       s.dmaCheck v.part (dmaBlock (memRead 0 (s.core (0 : CoreId)).dmem a 32)) = none) ∧
    (let s := withBlock (dmaFrom 65529)
     let a := ((s.core (0 : CoreId)).reg (10 : Fin 32)).toNat
     let v := (s.invOf (0 : CoreId)).getD default
     s.invOf (0 : CoreId) = some v ∧ s.dmaCheck v.part (dmaBlock (memRead 0 (s.core (0 : CoreId)).dmem a 32)) = some .segmentFault) ∧
    (let s := (withBlock []).updCore 0 (fun c => { c with dmaTickets := [(1, none), (0, some .ok)], dmaNext := 2 })
     s.coreReady (0 : CoreId) = true ∧ findTicket (s.core (0 : CoreId)).dmaNext 0 (s.core (0 : CoreId)).dmaTickets = some (some .ok) ∧
       findTicket (s.core (0 : CoreId)).dmaNext 1 (s.core (0 : CoreId)).dmaTickets = some none ∧
       findTicket (s.core (0 : CoreId)).dmaNext 2 (s.core (0 : CoreId)).dmaTickets = none) ∧
    (let j : DmaJob := ⟨0, 0, 0, dmaFrom 0, true⟩
     let s := (withBlock []).updCluster 0 (fun c => { c with dmaQ := [j] })
     let b := dmaBlock j.block
     (s.cluster (0 : ClusterId)).dmaQ = j :: [] ∧ j.started = true ∧ (s.core j.core).inv = some j.inv ∧ noMatrixOpen s ∧
       dmaSpace b.srcSpace = some .scratch ∧ dmaSpace b.dstSpace = some .basalt) := by decide +kernel

/-- A matrix command of INT8 operands, K = 2, at engine e with C at an address. -/
def matBlock (e c : Nat) : Octets :=
  [BitVec.ofNat 8 e, 4, 6, 6] ++ leBytes 4 2 ++ [1, 1, 1] ++ zeros 5 ++ leBytes 8 0 ++ leBytes 8 8192 ++ leBytes 8 c ++ leBytes 4 2 ++
    leBytes 4 64 ++ zeros 16

/-- A running core with the command queued at engine 0. -/
def atEngine (c : Nat) : State := (withBlock []).updEngine 0 (fun y => { y with queue := [⟨0, 0, 0, matBlock 0 c⟩] })

theorem witness_MatrixCommands :
    (∀ e ∈ [3, 4], (let s := withBlock (matBlock e 16384)
     let a := ((s.core (0 : CoreId)).reg (10 : Fin 32)).toNat
     let v := (s.invOf (0 : CoreId)).getD default
     let x := memRead 0 (s.core (0 : CoreId)).dmem a 64
     s.coreReady (0 : CoreId) = true ∧ s.invOf (0 : CoreId) = some v ∧ a % 8 = 0 ∧ dmemBase ≤ a ∧ a + 64 ≤ dmemEnd ∧
       s.windowsWait v.part = false ∧ openTickets (s.core (0 : CoreId)).matTickets < 32 ∧ v.cluster < 16 ∧ (matCmd x).engine = e ∧
       (s.engine (4 * v.cluster + 3)).faulty = false ∧ (s.engine (4 * v.cluster + 3)).queue.length < 8)) ∧
    (let s := (withBlock []).updCore 0 (fun c => { c with matTickets := [(0, some .ok)], matNext := 1 })
     s.coreReady (0 : CoreId) = true ∧ findTicket (s.core (0 : CoreId)).matNext ((s.core (0 : CoreId)).reg (1 : Fin 32)).toNat (s.core (0 : CoreId)).matTickets = some (some .ok)) ∧
    (let s := atEngine 16384
     let m := matCmd (matBlock 0 16384)
     let v := (s.inv 0).getD default
     (s.engine (0 : EngineId)).queue = ⟨0, 0, 0, matBlock 0 16384⟩ :: [] ∧ s.inv 0 = some v ∧ v.ended = none ∧ (s.core 0).inv = some 0 ∧
       (∀ x ∈ s.cores.toList, ∀ w ∈ x.matOpen, w.engine = (0 : EngineId).val ∧ w.raced = false) ∧
       s.matInput v.part 0 m = .ready .int8 .int8 (s.matRows 0 m .int8) (s.matCols 0 m .int8) ∧
       (matProduct m.strict m.zero .int8 .int8 m.k [] [] []).trap = none) ∧
    (let s := atEngine 0x7E0000
     let v := (s.inv 0).getD default
     (s.engine (0 : EngineId)).queue = ⟨0, 0, 0, matBlock 0 0x7E0000⟩ :: [] ∧ s.inv 0 = some v ∧ v.ended = none ∧
       s.matInput v.part 0 (matCmd (matBlock 0 0x7E0000)) = .refused .segmentFault) := by decide +kernel

/-- A running core of cluster 0, with the check-value unit of that cluster changed. -/
def checking (holder : Option Nat) (f : Cluster → Cluster) : State := (code 0).updCluster 0 (fun c => f { c with cvHolder := holder })

theorem witness_CheckValues :
    ((code 0).coreReady (0 : CoreId) = true ∧ ((code 0).cluster ((0 : CoreId).val / 16)).cvHolder = none) ∧
    (((checking (some 1) id).cluster ((0 : CoreId).val / 16)).cvHolder = some 1 ∧ (checking (some 1) id).coreReady (0 : CoreId) = true) ∧
    (let s := (checking (some 0) (fun c => { c with cvWaiting := [1] })).updCore 1 (fun c => { c with stall := .cvlock 5 })
     s.coreReady (0 : CoreId) = true ∧ (s.cluster ((0 : CoreId).val / 16)).cvHolder = some (0 : CoreId).val ∧
       (s.cluster ((0 : CoreId).val / 16)).cvWaiting = 1 :: []) ∧
    (let s := checking (some 0) id
     s.coreReady (0 : CoreId) = true ∧ s.holdsLock (0 : CoreId) = true ∧ (s.cluster ((0 : CoreId).val / 16)).cvFaulty = false ∧
       (4 : Nat) = (0x104 : Word64).toNat % 256 ^ 1 % 8 ∧ (s.cluster ((0 : CoreId).val / 16)).cvBusy = false) ∧
    (let s := checking (some 0) (fun c => { c with cvAlg := 1 })
     s.coreReady (0 : CoreId) = true ∧ s.holdsLock (0 : CoreId) = true ∧ (s.cluster ((0 : CoreId).val / 16)).cvFaulty = false ∧
       (crcOfCode (s.cluster ((0 : CoreId).val / 16)).cvAlg).isSome = true ∧ (s.cluster ((0 : CoreId).val / 16)).cvBusy = false) ∧
    ((code 0).holdsLock (0 : CoreId) = false ∧ ((code 0).invOf (0 : CoreId)).map Invocation.ended = some none) ∧
    (let s := (checking (some 0) (fun c => { c with cvBusy := true })).updCore 0 (fun c => { c with stall := .retry (.cvResultRead 0 5) })
     (0 : CoreId).val / 16 = (0 : ClusterId).val ∧ (s.core (0 : CoreId)).stall = .retry (.cvResultRead 0 5)) := by decide +kernel

/-- A compressed tensor of one tile of zeros of kind 3, and of another total length. -/
def tensorOf (total : Nat) : Octets :=
  let head : Octets := [0x43, 0x43, 0x54, 0x31, 1, 3, 0, 0] ++ beBytes 4 64 ++ beBytes 4 64 ++ beBytes 4 1 ++ beBytes 4 total ++ zeros 32 ++
    beBytes 2 1 ++ zeros 22 ++ beBytes 2 1 ++ zeros 2 ++ zeros 256 ++
    (List.range 16).flatMap (fun i => beBytes 4 (544 + 32 * i) ++ beBytes 4 32) ++ beBytes 4 480 ++ zeros 4
  head ++ beBytes 4 (crcOf crc32c head) ++ zeros 576

/-- A TENSOR_LOAD from scratch to Basalt. -/
def load0 : TensorLoad := { srcSpace := .scratch, srcCluster := 0, dstSpace := .basalt, dstCluster := 0, src := 0, dst := 0, capacity := 4096 }

/-- The tenant with an EXPAND of a tensor at its expander. -/
def expanding (x : Octets) : State :=
  { (accepted1 (.tensorExpand hdr load0) 0x32).updCluster 0 (fun c => { c with scratch := memWrite 0 [] 0 x }) with
    expanders := [[⟨3, 1, true, 0, 0, 0, load0, none, false⟩], []] }

/-- The header of that tensor. -/
def header0 : CctHeader :=
  ⟨3, 64, 64, 1, 1056, List.replicate 16 0, 1 :: List.replicate 11 0, [0], (List.range 16).map (fun i => (544 + 32 * i, 32)), 480⟩

theorem header_of (s : State) (j : TensorJob) (x : Octets) (h : CctHeader)
    (a : cctHeader x = some h ∧ s.access j.part j.op.srcSpace j.op.srcCluster j.op.src h.total .read = true ∧
      s.access j.part j.op.dstSpace j.op.dstCluster j.op.dst (tensorSize j.expand h) .write = true ∧ ¬ j.op.capacity < tensorSize j.expand h) :
    s.tensorHeader j x = .ok h := by simp [State.tensorHeader, a.1, a.2.1, a.2.2.1, a.2.2.2]

theorem header_bad (s : State) (j : TensorJob) (x : Octets) (h : cctHeader x = none) :
    s.tensorHeader j x = .error (.badDescriptor, tensorBody none noTile) := by simp [State.tensorHeader, h]

theorem witness_TensorLoads :
    (startsAtOnce tenant hdr 1 ∧ descsFresh tenant ∧ tenant.isFull 1 0x32 = false ∧ tenant.windowsWait 1 = false ∧
      tenant.tensorCheck 1 hdr.stream load0 = none ∧
      tenant.expanders.length = 2 ∧ load0.srcSpace ≠ .global ∧ tensorBad tenant hdr load0 false = false ∧
      tensorBad tenant hdr load0 true = false) ∧
    (let s := expanding (tensorOf 1056)
     let j : TensorJob := ⟨3, 1, true, 0, 0, 0, load0, none, false⟩
     s.expander (0 : Fin 2).val = j :: [] ∧ s.expanders.length = 2 ∧ s.writesWait j.op.dst j.op.capacity = false ∧ noMatrixOpen s ∧
       firstDefect header0 (s.readLocal j.op.srcSpace j.op.srcCluster j.op.src header0.total) (List.range header0.tiles) = none ∧
       (s.desc j.desc).map Desc.opcode = some 0x32) ∧
    (let s := expanding (tensorOf 1048)
     (s.desc 3).map Desc.opcode = some 0x32 ∧ tensorBody none noTile ≠ []) := by decide +kernel

theorem witness_TensorLoads_Header :
    let s := expanding (tensorOf 1056)
    let j : TensorJob := ⟨3, 1, true, 0, 0, 0, load0, none, false⟩
    s.tensorHeader j (s.readLocal j.op.srcSpace j.op.srcCluster j.op.src 480) = .ok header0 :=
  header_of _ _ _ _ (by decide +kernel)

theorem witness_TensorLoads_Refused :
    let s := expanding (tensorOf 1048)
    let j : TensorJob := ⟨3, 1, true, 0, 0, 0, load0, none, false⟩
    s.tensorHeader j (s.readLocal j.op.srcSpace j.op.srcCluster j.op.src 480) = .error (.badDescriptor, tensorBody none noTile) :=
  header_bad _ _ _ (by decide +kernel)

/-! ### Faults of units, items, line frames -/

theorem witness_UnitsFail :
    (tenant.core (0 : CoreId)).inv = none ∧
    (((code 0).core (0 : CoreId)).inv = some 0 ∧ (code 0).inv 0 = some (invoked (zeros 4) []) ∧ (invoked (zeros 4) []).ended = none) ∧
    ((accepted1 (.memGet hdr ⟨.basalt, 0, 8, 0⟩) 0x11).desc 3).map Desc.opcode = some 0x11 ∧
    (tenant.sliceOf (0 : SliceId)).retired = false ∧
    (let pl := runningPeal (second 0) .reducing
     (withPeal 0 pl).peal (1 : PartId) 0 0 = some pl ∧ (chunkOf pl 1).result = none) ∧
    (∀ u ∈ [[], [3]],
      let s := tenant.updSlice 0 (fun x => { x with closed := true, faulty := [3, 4], waitParts := [(4, 1)], spareUsed := u })
      let due := (s.sliceOf (0 : SliceId)).faulty.filter (fun g => !(s.sliceOf (0 : SliceId)).waitParts.any (fun w => w.1 == g))
      (s.sliceOf (0 : SliceId)).closed = true ∧ (∀ g ∈ s.groups, g.defn.slice = (0 : SliceId).val → g.peals = []) ∧ due = [3] ∧
        (u = [] → ∀ g ∈ due, g ∉ (s.sliceOf (0 : SliceId)).spareUsed) ∧
        (u = [3] → ∃ g ∈ due, g ∈ (s.sliceOf (0 : SliceId)).spareUsed)) ∧
    ((tenant.sliceOf (0 : SliceId)).closed = false ∧
      ∃ g ∈ (withPeal 0 (runningPeal (second 0) .reducing)).groups, g.defn.slice = (0 : SliceId).val ∧ g.peals ≠ []) := by decide +kernel

/-- A frame of the tenant offered by a writer. -/
def item0 (id vlan len : Nat) (w : Writer) (st : ItemStage) (b : Option (Nat × Nat × Nat)) : Item :=
  { id := id, part := 1, cls := 0, len := len, writer := w, origin := .nobody, load := .frame 1 none 0x88B5 (zeros 32), outs := [(0, vlan)],
    stage := st, buf := b, rx := none, lineBuf := none, ready := 0 }

/-- The tenant's switch core with these items, and these waiting for or writing to local output 0. -/
def holding (items : List Item) (waiting writing : List Nat) : State :=
  let s : State :=
    { tenant with
      sw := { tenant.sw with items := items, nextItem := 8 },
      conf := { tenantConf with limits := [⟨1, 0, List.replicate 16 16, List.replicate 6 16, []⟩] } }
  s.updOut 0 (fun q => { q with waiting := waiting, writing := writing })

theorem witness_ItemsPass :
    (let i := item0 0 10 64 (.localIn 0) .offered none
     let s := holding [i] [] []
     s.item 0 = some i ∧ s.entryMapped i (0, 10) = true ∧ s.outUp 0 = true ∧
       s.sw.items.any (fun j => j.stage == .wantsBuffer && sameQueue i j) = false ∧ (s.placeItem i).isSome = true ∧
       ∀ j ∈ s.sw.items, j.writer = i.writer → j = i) ∧
    (let i := item0 0 11 64 (.localIn 0) .offered none
     (holding [i] [] []).item 0 = some i ∧ i.buf = none ∧ i.lineBuf = none ∧ (holding [i] [] []).entryMapped i (0, 11) = false) ∧
    (let i := item0 0 10 9300 (.localIn 0) .offered none
     let s := holding [i] [] []
     s.item 0 = some i ∧ s.entryMapped i (0, 10) = true ∧ s.outUp 0 = true ∧ isLocalIn i.writer = true ∧ i.buf = none ∧ i.lineBuf = none ∧
       s.placeItem i = none ∧
       ∀ x ∈ s.nodeOps, x.part ≠ i.part ∨ x.origin ≠ i.origin) ∧
    (∀ n ∈ [3, 4],
      let i := item0 0 10 64 (.localIn 0) .wantsOutput none
      let s := holding (i :: (List.range 4).map (fun k => item0 (k + 1) 10 64 (.lineIn k) .writing none)) [0] ((List.range n).map (· + 1))
      (s.outPort (0 : Fin 80)).waiting = 0 :: [] ∧ s.item 0 = some i ∧ i.outs = [((0 : Fin 80).val, 10)] ∧
        (s.claims (0 : Fin 80) + claimOf i.writer ≤ claimLimit (0 : Fin 80) ↔ n = 3)) ∧
    (let i := item0 0 10 64 (.localIn 0) .writing (some (0, 0, 0))
     let s := { holding [i] [] [0] with sw := { (holding [i] [] [0]).sw with bufs := [⟨0, 0, 0, 1, 1, 0, [], false⟩] } }
     s.item 0 = some i ∧ i.lineBuf = none ∧ (s.buf (0, 0, 0)).isSome = true) ∧
    (∀ n ∈ [0, 1, 2], (({ tenant with sw := { tenant.sw with bufs := [⟨0, 0, 0, 1, n, 0, [], false⟩] } } : State).buf ((0 : DieId), 0,
      0)).map Buf.refs = some n ∧
      tenant.sw.pools.length = 24) ∧
    (let s := tenant.updPool 0 0 (fun q => { q with freed := [(0, 1)] })
     s.buf ((0 : DieId), 0, 0) = none ∧ (s.pool (0 : DieId) 0).freed.find? (fun f => f.1 == 0) = some (0, 1) ∧ s.sw.pools.length = 24) := by
  decide +kernel

/-- The tenant's frame at the head of a queue of local output 0, which has used some of its credit. -/
def sending (consumed : Nat) : State :=
  let s := (holding [item0 0 10 64 (.localIn 0) .queued (some (0, 0, 0))] [] []).updPort 0 (fun q => { q with consumed := consumed })
  { s with sw := { s.sw with bufs := [⟨0, 0, 0, 1, 1, 64, zeros 32, false⟩], queues := [⟨0, 0, 1, [0], 256, 0⟩] } }

theorem witness_ItemsPass_Selected :
    ((sending 64).port (0 : LocalPort)).linkUp = true ∧ (sending 64).outFree (0 : LocalPort) = true ∧
    (sending 64).chooseLocal (0 : LocalPort) = some (0, item0 0 10 64 (.localIn 0) .queued (some (0, 0, 0)), 9216) ∧
    (sending 64).credit (0 : LocalPort) < unitsOf 64 ∧
    (sending 63).chooseLocal (0 : LocalPort) = some (0, item0 0 10 64 (.localIn 0) .queued (some (0, 0, 0)), 9216) ∧
    unitsOf 64 ≤ (sending 63).credit (0 : LocalPort) := by decide +kernel

/-- The tenant with line port 0 in service, changed by f. -/
def lined (f : LinePortState → LinePortState) : State := tenant.updLine 0 (fun l => f { l with inService := true })

/-- A segment sealed for the tenant. -/
def built (withdrawn : Bool) : SegBuild :=
  { ctx := none, part := 1, seq := none, again := false, keySlot := none, blockSlot := none, cls := 0, octets := zeros 97, withdrawn := withdrawn }

/-- An open stream context whose record is due. -/
def dueCtx : Ctx := { Ctx.fresh 1 16 with state := .open, site := 2, recordDue := some 0 }

theorem witness_LineFramesLeave :
    tenant.lineUp (0 : LinePort) = false ∧
    (let s := lined id
     lineFree s (0 : LinePort) ∧ (s.line (0 : LinePort)).late = [] ∧ lineQuiet s (0 : LinePort) ∧ s.dueOn (0 : LinePort) = []) ∧
    (let s := lined (fun l => { l with late := [built false] })
     lineFree s (0 : LinePort) ∧ (s.line (0 : LinePort)).late = [built false] ∧ s.mayUse (0 : LinePort) (built false).part = true) ∧
    (let s := { lined (fun l => { l with tx := { l.tx with key := some ⟨1, 0, zeros 32, zeros 4⟩ } }) with ctxs := [dueCtx] }
     lineFree s (0 : LinePort) ∧ (s.line (0 : LinePort)).late = [] ∧ lineQuiet s (0 : LinePort) ∧ s.dueOn (0 : LinePort) = [dueCtx]) ∧
    ((lined id).line (0 : LinePort)).sealing = none ∧
    ((lined (fun l => { l with sealing := some (built true) })).line (0 : LinePort)).sealing = some (built true) := by decide +kernel

/-- The key of the tenant's slot 64. -/
def slot64 : KeySlot :=
  { slot := 64, part := 1, usage := 1, state := .active, mag := ⟨[], [(zeros 32, zeros 4, 2 ^ 32)]⟩, staged := none, magNum := 0, pos := 0,
    generation := 0, activation := some 1, granted := 0, lineEpoch := 0, linePort := none, held := true }

/-- Line port 0 in frame, with slot 64 active. -/
def inFrame (bad : Nat) : State :=
  { lined (fun l => { l with rx := { l.rx with inFrame := true, order := List.range 8, badFas := bad } }) with
    keys := { KeyStore.reset with slots := [slot64] } }

theorem witness_LineFramesArrive :
    tenant.lineUp (0 : LinePort) = false ∧
    ((lined id).lineUp (0 : LinePort) = true ∧ ((lined id).line (0 : LinePort)).rx.inFrame = false) ∧
    ((inFrame 4).lineUp (0 : LinePort) = true ∧ ((inFrame 4).line (0 : LinePort)).rx.inFrame = true ∧
      ((inFrame 4).line (0 : LinePort)).rx.badFas = 4 ∧
      ∀ ws ∈ [[], fasWords], ((lanesFrame ((inFrame 4).line (0 : LinePort)).rx.order (ws.map (fun w => (0,
        [w])))).take 5 = fasOctets ↔ ws = fasWords)) := by decide +kernel

/-- The powers of α in the table of the model are those of the field of R281, and the logarithms are theirs. -/
theorem test_gf_tables : ∀ i < 1023, gfExp (i + 1) = gfDouble (gfExp i) ∧ gfLog (gfExp i) = i := by decide +kernel

/-- Line port 0 with a LINE record that expects another trace than it sends, Quartz SET and the DRBG seeded. -/
def keyed : State :=
  { inFrame 0 with
    conf := { tenantConf with lines := [{ line0 with transmitted := 1 :: zeros 63 }] }, quartz := { Quartz.reset with set := true },
    keys := { KeyStore.reset with slots := [slot64], drbg := some ⟨zeros 32, zeros 16, 1⟩ } }

theorem witness_LinesSupervised :
    ((inFrame 0).lineUp (0 : LinePort) = true ∧ ((inFrame 0).line (0 : LinePort)).rx.dlos = false) ∧
    (∀ b ∈ [true, false],
      let s := lined (fun l => { l with rx := { l.rx with dlos := b, dlof := b, dlom := b, inFrame := b, inMulti := b } })
      s.lineUp (0 : LinePort) = true ∧ (s.line (0 : LinePort)).rx.dlos = b ∧ (s.line (0 : LinePort)).rx.inFrame = b ∧
        (s.line (0 : LinePort)).rx.dlof = b ∧ (s.line (0 : LinePort)).rx.inMulti = b ∧ (s.line (0 : LinePort)).rx.dlom = b) ∧
    ((0 : LinePort).val = 4 * (0 : Fin 4).val + (0 : Fin 4).val) ∧
    (let r : LineRec := { line0 with transmitted := 1 :: zeros 63 }
     keyed.lineUp (0 : LinePort) = true ∧ keyed.conf.lineOf (0 : LinePort) = some r ∧ keyed.keySlot r.keySlot = some slot64 ∧
       State.currentKey slot64 = some (zeros 32, zeros 4, 2 ^ 32) ∧ keyed.quartz.set = true ∧ r.transmitted ≠ r.expected ∧
       (keyed.drbg 4).isSome = true) ∧
    (tenant.lineUp (0 : LinePort) = false ∧ (inFrame 0).quartz.set = false) := by decide +kernel

/-! ### Streams -/

/-- The tenant with line port 0 in frame, slot 64 active, shares in every pool, and these stream contexts. -/
def streams (l : List Ctx) : State :=
  { inFrame 0 with
    ctxs := l,
    conf := { tenantConf with
              blobs := [⟨64, 0, 1, 2 ^ 32, 1, zeros 40⟩], limits := [⟨1, 0, List.replicate 16 16, List.replicate 6 16, []⟩] } }

/-- An open context of stream 16 toward site 2, expecting sequence 5. -/
def openAs (k : CtxKey) : Ctx :=
  { Ctx.fresh 1 16 with key := k, state := .open, site := 2, incarnation := 3, cumulative := 5, sendNext := 9, sendBase := 6, openTime := 1 }

/-- A segment header of stream 16 under slot 64. -/
def seg (reverse : Bool) (seq : Nat) : SegHdr := ⟨16, reverse, false, 0, seq, 3, 64, 1, 5, none⟩

theorem named (l : List Ctx) (reverse : Bool) (q : Nat) : bodyNamed (streams l) (seg reverse q) 1 := by
  refine ⟨?_, slot64, (zeros 32, zeros 4, 2 ^ 32), ?_⟩
  · exact (by decide +kernel : (streams []).streamPart 16 = some 1)
  · exact (by decide +kernel : (streams []).keySlot 64 = some slot64 ∧ slot64.part = 1 ∧ slot64.usage = 1 ∧
      State.currentKey slot64 = some (zeros 32, zeros 4, 2 ^ 32) ∧ 0 = State.epochOf slot64 ∧ beNat (zeros 4) ≠ 1)

/-- A completion of a get of 8 octets. -/
def getReply : Octets := yuvBytes 2 0x11 0 7 16 (zeros 8)

/-- A CONTROL body of a time. -/
def control (st : Status) (secs : Nat) : ControlBody := ⟨st, 0, secs, 0⟩

/-- A record of stream 16 as its originator gets it. -/
def record (cumulative : Nat) : AckRec := ⟨16, false, 3, cumulative, 300, 0, zeros 32, none⟩

theorem witness_SegmentsArrive :
    (bodyNamed (streams []) (seg false 0) 1 ∧ (streams []).bodyCtx (0 : LinePort) (seg false 0) = none) ∧
    (bodyNamed (streams [openAs (accKey 16 2)]) (seg false 4) 1 ∧
      (streams [openAs (accKey 16 2)]).bodyCtx (0 : LinePort) (seg false 4) = some (openAs (accKey 16 2)) ∧ earlier 32 4 5 = true) ∧
    (bodyNamed (streams [openAs (accKey 16 2)]) (seg false 6) 1 ∧
      (streams [openAs (accKey 16 2)]).bodyCtx (0 : LinePort) (seg false 6) = some (openAs (accKey 16 2)) ∧ later 32 6 5 = true ∧
      serialDiff 32 6 5 < (openAs (accKey 16 2)).advertised ∧ (∀ y ∈ (openAs (accKey 16 2)).stored, y.seq ≠ 6) ∧
      0 < (streams []).freeShare 1 (4 + lineDie (0 : LinePort)) 0 ∧ 0 < ((streams []).pool (4 + lineDie (0 : LinePort)) 0).free ∧
      (streams []).sw.bufs = []) ∧
    (bodyNamed (streams [openAs (origKey 16)]) (seg true 5) 1 ∧
      (streams [openAs (origKey 16)]).bodyCtx (0 : LinePort) (seg true 5) = some (openAs (origKey 16)) ∧ goodCompletion getReply ∧
      ((streams []).fitPool 1 (4 + lineDie (0 : LinePort)) getReply.length).isSome = true) :=
  ⟨⟨named _ _ _, by decide +kernel⟩, ⟨named _ _ _, by decide +kernel⟩, ⟨named _ _ _, by decide +kernel⟩, named _ _ _, by decide +kernel⟩

theorem witness_SegmentsArrive_Control :
    (∀ n ∈ [6, 9], (streams [openAs (origKey 16)]).ctx (origKey 16) = some (openAs (origKey 16)) ∧ later 32 (record n).cumulative 9 = false) ∧
    (let s := { streams [] with quartz := { Quartz.reset with set := true, secs := 10 } }
     s.quartz.set = true ∧ s.ctx (accKey 16 (s.siteOfLine (0 : LinePort))) = none ∧
       (∀ n ∈ [0, 11], s.now ≤ n * nsPerSec + 10 * nsPerSec ∧ n * nsPerSec ≤ s.now + nsPerSec) ∧
       s.now + nsPerSec < 12 * nsPerSec ∧
       s.ctxs.countP (fun c => c.key.accepted && c.part == 1) < ((s.conf.partOf 1).map PartRec.streamCount).getD 0) ∧
    ((streams []).quartz.set = false ∧ (streams []).ctx (accKey 16 2) = none) ∧
    (let c := { openAs (accKey 16 2) with state := .failed .timeout }
     (streams [c]).ctx (accKey 16 ((streams [c]).siteOfLine (0 : LinePort))) = some c ∧ c.incarnation = (seg false 0).incarnation ∧
       c.openTime = 0 * nsPerSec + 1 ∧ c.state ≠ .open) := by decide +kernel

/-- A get of 8 octets of Basalt from the line, on stream 0. -/
def lineGet (addr : Nat) : Octets := yuvBytes 1 0x11 0 7 0 (memBody .basalt 0 0 0 8 addr 0 0 [])

/-- Its header as the model reads it. -/
def lineHdr : DescHdr := { port := 0, vlan := 0, cls := 0, src := 0, wantCompletion := false, fence := false, tag := 7, stream := 0, units := 0 }

/-- An operation of the tenant outstanding on stream 16. -/
def withOp : Ctx := { openAs (origKey 16) with ops := [⟨7, 0x11, 8, .desc 3⟩] }

theorem witness_RemoteOperationsRun :
    (∀ a ∈ [0, 65529],
      let s := streams [{ openAs (accKey 0 2) with key := accKey 0 2 }]
      s.resuming = none ∧ numbersGiven s ∧ beAt 8 4 (lineGet a) % 1048576 = 0 ∧ s.ctx (accKey 0 2) = some (openAs (accKey 0 2)) ∧
        octetAt 0 (lineGet a) = 1 ∧
        octetAt 1 (lineGet a) = 1 ∧ octetAt 2 (lineGet a) = 0x11 ∧ s.remoteOps = [] ∧
        beAt 4 4 (lineGet a) = 7 ∧ parseDescriptor lineHdr (lineGet a) = some (.memGet lineHdr ⟨.basalt, 0, 8, a⟩) ∧
        (s.part (1 : PartId)).state = .active ∧ s.memHeld (1 : PartId) ⟨.basalt, 0, 8, a⟩ false = false ∧
        matrixWrites s ⟨.basalt, 0, 8, a⟩ = false ∧ s.access 1 .basalt 0 a 8 Rights.read.inbound = (a == 0)) ∧
    (let s := streams [{ openAs (accKey 0 2) with key := accKey 0 2 }]
     let r := { freshRemote 0 (openAs (accKey 0 2)) (lineGet 0) none with held := some (.remoteOperationRx 1 2 (lineGet 0)) }
     numbersGiven { s with remoteOps := [r], nextRemote := 1 } ∧ r.ctx = (openAs (accKey 0 2)).key ∧
       ({ s with remoteOps := [r], nextRemote := 1 } : State).remoteWaits r = true) ∧
    (let s : State := { accepted1 (.memGet hdr ⟨.global, 0, 8, globalAt 2 5 0⟩) 0x11 with ctxs := [withOp] }
     s.ctxs.find? (fun x => x.part == (1 : PartId).val && !x.key.accepted && x.ops.any (fun o => o.tag == 7)) = some withOp ∧
       withOp.ops.find? (fun o => o.tag == 7) = some ⟨7, 0x11, 8, .desc 3⟩ ∧ (s.desc 3).map Desc.opcode = some 0x11 ∧ (zeros 8).length = 8 ∧
       s.ctxs.find? (fun x => x.part == (1 : PartId).val && !x.key.accepted && x.ops.any (fun o => o.tag == 8)) = none) := by decide +kernel

/-- A sent segment of stream 16 at the base. -/
def heldAt (retries : Nat) : HeldSeg := { seq := 6, body := .data [], firstSent := some 0, lastSent := 0, retries := retries, queued := false }

theorem witness_StreamTimers :
    (let c := { openAs (origKey 16) with firstArrival := some 0 }
     (streams [c]).ctx (origKey 16) = some c ∧ c.state = .open ∧ c.firstArrival.isSome = true) ∧
    ((streams [openAs (origKey 16)]).ctx (origKey 16) = some (openAs (origKey 16)) ∧ (openAs (origKey 16)).firstArrival = none) ∧
    (∀ n ∈ [15, 16],
      let c := { openAs (origKey 16) with held := [heldAt n] }
      (streams [c]).ctx (origKey 16) = some c ∧ c.state = .open ∧ c.held.find? (fun h => h.seq == c.sendBase) = some (heldAt n) ∧
        (heldAt n).firstSent.isSome = true ∧ (heldAt n).queued = false ∧ (heldAt n).body = .data [] ∧ c.line < 16 ∧
        ∃ h ∈ c.held, h.firstSent.isSome = true) ∧
    (let c := { openAs (origKey 16) with waitBuffer := some 0, stored := [⟨5, wholePiece 3 getReply, false, none⟩] }
     (streams [c]).ctx (origKey 16) = some c ∧ c.state = .open ∧ (origKey 16).accepted = false ∧ c.item = none ∧ goodCompletion getReply ∧
       ((streams [c]).fitPool c.part (4 + lineDie c.rxLine) getReply.length).isSome = true) ∧
    (let c := { openAs (accKey 16 2) with state := .failed .timeout }
     (streams [c]).ctx (accKey 16 2) = some c ∧ (accKey 16 2).accepted = true ∧ c.unanswered = 0 ∧ ctxBufs c = []) ∧
    ((streams [openAs (accKey 16 2)]).ctx (accKey 16 2) = some (openAs (accKey 16 2)) ∧ (openAs (accKey 16 2)).state = .open) := by
  decide +kernel

/-! ### Keys and time -/

/-- A bound device of UID 1 whose owner key is the generator, with the slots of this key store. -/
def bound (k : KeyStore) : State :=
  { streams [] with
    fixed := ⟨1, 0, BitVec.ofNat 384 (beNat (sha384 pubKey)), []⟩, keys := k,
    owner := [.valid (BitVec.ofNat 384 (beNat (sha384 pubKey))), .blank] }

/-- Octets signed with the generator's key, then their signature. -/
def signed (m : Octets) : Octets := m ++ ecdsaSign 1 1 m

/-- Alternating samples, which both health tests pass. -/
def goodSamples (n : Nat) : List Bool := (List.range n).map (fun i => i % 2 == 0)

/-- Derived slots held: 0 of zeros, and 1 whose scalar is 1. -/
def heldKeys : KeyStore := { KeyStore.reset with derived := [(0, zeros 32), (1, zeros 32)], slots := [slot64] }

/-- The import key of device 1 for the generator as both ephemeral point and shared point. -/
def key1 : Octets := [181, 155, 36, 87, 61, 7, 9, 127, 219, 144, 132, 126, 156, 209, 10, 30, 108, 43, 252, 218, 117, 99, 252, 181, 39, 95,
  58, 185, 136, 164, 170, 232]

/-- A key of zeros wrapped under it. -/
def blob1 : Octets := [63, 172, 99, 158, 218, 38, 124, 54, 17, 224, 196, 95, 20, 33, 239, 226, 225, 208, 88, 90, 248, 83, 117, 18, 112, 180,
  66, 43, 16, 68, 75, 10, 41, 33, 195, 101, 9, 197, 26, 139]

/-- A KEY_WRAP of that key to a device of this UID. -/
def wrapRecord (uid : Nat) : Octets :=
  signed (beBytes 2 0x0D08 ++ beBytes 2 260 ++ beBytes 8 uid ++ zeros 4 ++ pubKey ++ zeros 3 ++ blob1 ++ zeros 8)

theorem witness_KeysServed_Slots :
    (∀ g ∈ [0, 2 ^ 32 - 1],
      let k := { slot64 with granted := g }
      let s := bound { heldKeys with slots := [k] }
      s.keySlot 64 = some k ∧ k.usage = 1 ∧ k.state = .active ∧ k.activation = some 1 ∧ 0 < State.leftOf k) ∧
    (let k := { slot64 with granted := 2 ^ 32 }
     let s := bound { heldKeys with slots := [k] }
     s.keySlot 64 = some k ∧ k.usage = 1 ∧ k.state = .active ∧ k.activation.isSome = true ∧ State.leftOf k = 0 ∧ k.staged = none ∧
       k.mag.keys[k.pos + 1]? = none) ∧
    ((bound heldKeys).keys.ent = .healthy ∧ (∀ n ∈ [768, 4096], healthOk (goodSamples n) = true ∧ healthOk (List.replicate n true) = false) ∧
      (bound { heldKeys with drbg := some ⟨zeros 32, zeros 16, 1⟩ }).keys.drbg = some ⟨zeros 32, zeros 16, 1⟩) ∧
    (bound { heldKeys with ent := .failed, retestFails := 2 }).keys.ent = .failed ∧
    (let r : LineRec := { line0 with transmitted := 1 :: zeros 63 }
     ∀ s ∈ [{ keyed with quartz := Quartz.reset }, { keyed with conf := { tenantConf with lines := [{ r with expected := r.transmitted }] } },
         { keyed with keys := { keyed.keys with slots := [] } }, { keyed with keys := { keyed.keys with drbg := none } }],
       s.lineUp (0 : LinePort) = true ∧ (s.conf.lineOf (0 : LinePort)).isSome = true ∧
         (s.quartz.set = false ∨ (s.conf.lineOf (0 : LinePort)).all (fun r => r.transmitted == r.expected) = true ∨
           s.keySlot r.keySlot = none ∨ (s.drbg 4).isNone = true)) := by decide +kernel

theorem test_import_key : importKey (bound heldKeys).fixed ((p384Coords p384G).take 48) = key1 := by decide +kernel

/-- Step k of unwrapping a key of 32 octets. -/
def unwrapStep (key : Octets) (st : Octets × List Octets) (k : Nat) : Octets × List Octets := kwUnstep key st (24 - k) ((24 - k - 1) % 4)

theorem unwrap_chunks {key ct : Octets} {x y z : Octets × List Octets} (n : ct.length / 8 - 1 = 4)
    (a : [0, 1, 2, 3, 4, 5, 6, 7].foldl (unwrapStep key) (ct.take 8, [0, 1, 2, 3].map (fun i => slice (8 * (i + 1)) 8 ct)) = x)
    (b : [8, 9, 10, 11, 12, 13, 14, 15].foldl (unwrapStep key) x = y) (c : [16, 17, 18, 19, 20, 21, 22, 23].foldl (unwrapStep key) y = z) :
    kwUnwrap key ct = if z.1 == List.replicate 8 0xA6 then some z.2.flatten else none := by
  have r : List.range (6 * 4) = [0, 1, 2, 3, 4, 5, 6, 7] ++ [8, 9, 10, 11, 12, 13, 14, 15] ++ [16, 17, 18, 19, 20, 21, 22, 23] := by decide
  have q : List.range 4 = [0, 1, 2, 3] := by decide
  unfold kwUnwrap
  simp only [n, r, q, List.foldl_append]
  rw [← c, ← b, ← a]
  rfl

/-- The states of unwrapping after 8 and after 16 steps. -/
def unwrapped8 : Octets × List Octets :=
  ([114, 60, 69, 34, 43, 69, 78, 149],
   [[193, 219, 122, 17, 33, 45, 31, 24], [182, 218, 124, 75, 214, 133, 156, 135], [229, 70, 132, 61, 207, 141, 189, 169],
     [10, 196, 202, 163, 195, 227, 216, 252]])

def unwrapped16 : Octets × List Octets :=
  ([255, 233, 221, 153, 6, 135, 247, 123],
   [[185, 96, 232, 56, 199, 176, 143, 142], [28, 143, 191, 227, 55, 7, 70, 138], [108, 132, 12, 248, 145, 135, 152, 88],
     [1, 135, 91, 119, 185, 123, 223, 121]])

theorem test_unwrap_0 : [0, 1, 2, 3, 4, 5, 6, 7].foldl (unwrapStep key1) (blob1.take 8, [0, 1, 2, 3].map (fun i => slice (8 * (i + 1)) 8 blob1)) =
    unwrapped8 := by decide +kernel

theorem test_unwrap_1 : [8, 9, 10, 11, 12, 13, 14, 15].foldl (unwrapStep key1) unwrapped8 = unwrapped16 := by decide +kernel

theorem test_unwrap_2 : [16, 17, 18, 19, 20, 21, 22, 23].foldl (unwrapStep key1) unwrapped16 =
    (List.replicate 8 0xA6, [zeros 8, zeros 8, zeros 8, zeros 8]) := by decide +kernel

theorem test_unwrap : kwUnwrap key1 blob1 = some (zeros 32) := by
  rw [unwrap_chunks (by decide +kernel) test_unwrap_0 test_unwrap_1 test_unwrap_2]
  decide +kernel

theorem witness_KeysServed_Wrap :
    let s := bound heldKeys
    keyWrapForm (zeros 260) = false ∧ (keyWrapForm (wrapRecord 2) = true ∧ s.namesUs (wrapRecord 2) = false) ∧
      keyWrapForm (wrapRecord 1) = true ∧ s.namesUs (wrapRecord 1) = true ∧ s.derivedKey 1 = some (zeros 32) ∧ s.kek.isSome = true ∧
      ecdhX (scalarOfKey (zeros 32)) (p384Decode (slice 16 97 (wrapRecord 1))) = some ((p384Coords p384G).take 48) ∧
      slice 116 40 (wrapRecord 1) = blob1 := by decide +kernel

theorem witness_KeysServed_WrapKey : kwUnwrap (importKey (bound heldKeys).fixed ((p384Coords p384G).take 48)) (slice 116 40 (wrapRecord 1)) =
    some (zeros 32) := by
  rw [test_import_key, witness_KeysServed_Wrap.2.2.2.2.2.2.2, test_unwrap]

theorem witness_KeysServed_WrapSigned :
    (bound heldKeys).ownerSigned ((wrapRecord 1).take 164) (slice 164 96 (wrapRecord 1)) = true := by decide +kernel

/-- A TIME record that takes PPS_IN and drives PPS_OUT. -/
def ppsRec : TimeRec := ⟨0, true, true, 0, 0⟩

/-- The bound device with PPS_IN on and this Quartz. -/
def timed (q : Quartz) : State := { bound heldKeys with conf := { tenantConf with time := some ppsRec }, quartz := q }

/-- A TIME_SET to 100 s that answers the challenge of zeros. -/
def timeRecord (flags secs : Nat) : Octets :=
  signed (beBytes 2 0x0D0A ++ beBytes 2 144 ++ beBytes 8 1 ++ zeros 16 ++ [BitVec.ofNat 8 flags] ++ zeros 3 ++ beBytes 8 secs ++ beBytes 4 0 ++
    zeros 4)

/-- Quartz with the challenge of zeros kept. -/
def asking : Quartz := { Quartz.reset with timeChallenge := some (zeros 16, 600, 0) }

theorem witness_QuartzKeepsTime_Set :
    ((keyed.drbg 16).isSome = true ∧ tenant.drbg 16 = none) ∧
    timeSetForm (zeros 144) = false ∧
    (timeSetForm (timeRecord 0 100) = true ∧ (bound heldKeys).timeSetAllowed (timeRecord 0 100) = false) ∧
    (let s := { bound heldKeys with quartz := { asking with set := true, secs := 40 } }
     s.timeSetAllowed (timeRecord 0 100) = true ∧ s.quartz.set = true) := by decide +kernel

theorem witness_QuartzKeepsTime_Unset :
    (let s := timed asking
     timeSetForm (timeRecord 1 100) = true ∧ s.timeSetAllowed (timeRecord 1 100) = true ∧ s.quartz.set = false) ∧
    ({ bound heldKeys with quartz := asking } : State).timeSetAllowed (timeRecord 0 100) = true := by decide +kernel

theorem witness_QuartzKeepsTime_Edges :
    (Quartz.reset.pendingSet = none ∧ (timed { asking with pendingSet := some (5, 0) }).quartz.pendingSet.isSome = true) ∧
    ((bound heldKeys).ppsIn = false ∧ (timed asking).ppsIn = true) ∧
    (∀ e ∈ [9999, 10000],
      let s := timed { Quartz.reset with set := true, secs := 5, ns := e, lastEdge := some ((2 * 4 * nsPerSec : Nat) : Int) }
      s.ppsIn = true ∧ s.edgeAccepted (s.edgeTime 0) 100 = true ∧ s.quartz.set = true ∧
        (decide ((phaseHalf (s.edgeTime 0)).natAbs < 20000)) = (e == 9999)) ∧
    (let s := timed { Quartz.reset with pendingSet := some (5, 0) }
     s.ppsIn = true ∧ s.edgeAccepted (s.edgeTime 19) 100 = true ∧ s.quartz.set = false ∧ s.quartz.pendingSet = some (5, 0)) ∧
    (Quartz.reset.tracking = false ∧ { Quartz.reset with tracking := true }.tracking = true) := by decide +kernel

/-! ### Owner, debug and flash -/

/-- An owner bind record for the generator's key, with slot k named. -/
def bindRecord (k : Nat) (sig2 : Bool) : Octets :=
  let x := signed (beBytes 2 0x0D02 ++ beBytes 2 308 ++ beBytes 8 1 ++ [BitVec.ofNat 8 k] ++ zeros 3 ++ pubKey ++ zeros 3)
  if sig2 then signed x else x ++ zeros 96

/-- A device of UID 1 without an owner. -/
def unbound : State := { bound heldKeys with owner := [.blank, .blank] }

theorem witness_OwnersAndDebug_Bind :
    ((unbound.bindCase (zeros 308)).toOption = none ∧ (unbound.bindCase (bindRecord 1 false)).toOption = none) ∧
    (ownerBindForm (bindRecord 0 false) = true ∧ octetAt 12 (bindRecord 0 false) = 0 ∧ zerosAt 212 96 (bindRecord 0 false) = true ∧
      unbound.namesUs (bindRecord 0 false) = true ∧ unbound.owner = [.blank, .blank] ∧
      ecdsaVerify (slice 16 97 (bindRecord 0 false)) ((bindRecord 0 false).take 116) (slice 116 96 (bindRecord 0 false)) = true) := by
  decide +kernel

theorem witness_OwnersAndDebug_Void :
    (let s : State := { unbound with owner := [.void, .blank] }
     s.owner = [.void, .blank] ∧ ownerBindForm (bindRecord 1 false) = true ∧ octetAt 12 (bindRecord 1 false) = 1 ∧
       zerosAt 212 96 (bindRecord 1 false) = true ∧ s.namesUs (bindRecord 1 false) = true ∧ ecdsaVerify (slice 16 97 (bindRecord 1 false))
         ((bindRecord 1 false).take 116) (slice 116 96 (bindRecord 1 false)) = true ∧ octetAt 12 (bindRecord 0 false) ≠ 1) ∧
    (∀ a ∈ [OwnerSlot.void, .valid 0], ({ unbound with owner := [a, .void] } : State).owner = [a, .void] ∧ a ≠ .blank) := by decide +kernel

theorem witness_OwnersAndDebug_Transfer :
    (ownerBindForm (bindRecord 1 true) = true ∧ octetAt 12 (bindRecord 1 true) = 1 ∧ (bound heldKeys).namesUs (bindRecord 1 true) = true ∧
      (bound heldKeys).owner = [.valid (BitVec.ofNat 384 (beNat (sha384 pubKey))), .blank] ∧
      ecdsaVerify (slice 16 97 (bindRecord 1 true)) ((bindRecord 1 true).take 116) (slice 116 96 (bindRecord 1 true)) = true) ∧
    (bound heldKeys).ownerSigned ((bindRecord 1 true).take 212) (slice 212 96 (bindRecord 1 true)) = true ∧
    (bound heldKeys).ownerSigned ((bindRecord 1 false).take 212) (slice 212 96 (bindRecord 1 false)) = false := by decide +kernel

/-- A token of scope 3 that answers the challenge of zeros and expires at 100 s. -/
def token : Octets :=
  signed (beBytes 2 0x0D01 ++ beBytes 2 136 ++ beBytes 8 1 ++ zeros 16 ++ [3] ++ zeros 3 ++ beBytes 8 100)

/-- The bound device at these seconds with a debug challenge of zeros that holds to 100 s. -/
def challenged (secs : Nat) : State :=
  { bound heldKeys with quartz := { Quartz.reset with set := true, secs := secs, debugChallenge := some (zeros 16, 100, 0) } }

theorem witness_OwnersAndDebug_Token :
    (keyed.drbg 16).isSome = true ∧ debugForm (zeros 136) = false ∧ debugForm token = true ∧
    (challenged 100).tokenAllowed token = true ∧ (challenged 101).tokenAllowed token = false ∧
    ({ challenged 100 with debugPending := some 3 } : State).debugPending = some 3 ∧
    (let a := accepted1 (.memGet hdr ⟨.basalt, 0, 8, 0⟩) 0x11
     let s : State := { challenged 100 with descs := a.descs, groups := [] }
     s.tokenAllowed token = true ∧ s.ctxs = [] ∧ s.groups = [] ∧ s.keys.bulk = [] ∧ (s.desc 3).map Desc.opcode = some 0x11) := by decide +kernel

/-- 4,096 octets of firmware that an erased flash reads as. -/
def code0 : Octets := List.replicate 4096 0xFF

/-- Directory, PARTITION record of partition 0 and FIRMWARE record of a container, up to the code. -/
def containerTail : Octets :=
  beBytes 2 0x0101 ++ zeros 2 ++ beBytes 4 352 ++ beBytes 4 136 ++ zeros 4 ++
  beBytes 2 0x01F0 ++ zeros 2 ++ beBytes 4 488 ++ beBytes 4 4360 ++ zeros 4 ++
  beBytes 2 0x0101 ++ zeros 2 ++ beBytes 4 136 ++ zeros 128 ++
  signed (beBytes 2 0x01F0 ++ zeros 2 ++ beBytes 4 4360 ++ beBytes 4 1 ++ beBytes 4 4096 ++ pubKey ++ zeros 3 ++
    [151, 97, 166, 204, 143, 56, 21, 20, 18, 91, 213, 70, 27, 17, 161, 122, 114, 23, 3, 251, 33, 121, 221, 241, 83, 72, 182,
     39, 107, 71, 254, 147, 187, 202, 86, 80, 96, 189, 180, 37, 201, 156, 174, 147, 251, 214, 141, 132]) ++ zeros 4

/-- The header of that container. -/
def containerHead : Octets :=
  signed (beBytes 4 0x534C4154 ++ beBytes 2 1 ++ beBytes 2 320 ++ beBytes 4 4848 ++ beBytes 4 1 ++ beBytes 4 2 ++ beBytes 2 1 ++ zeros 2 ++
    beBytes 8 1 ++
    [176, 104, 114, 5, 62, 169, 176, 199, 215, 36, 32, 227, 187, 88, 56, 44, 181, 70, 153, 129, 224, 77, 239, 40, 81, 223,
     76, 131, 8, 251, 224, 45, 74, 33, 47, 35, 53, 89, 161, 180, 178, 92, 80, 42, 37, 160, 59, 212] ++
    pubKey ++ zeros 3 ++ zeros 2 ++ [0, 0, 0, 0, 0, 0] ++ zeros 36)

/-- The bound device with these flash devices and this update. -/
def flashed (devs : List FlashDev) (u : Option Update) : State :=
  { bound heldKeys with flash := ⟨devs, u, [], [], 0⟩ }

/-- A working flash device with these cells and rest. -/
def flashDev0 (cells : List Host.Cell) (rest : Option (Nat × Octets)) : FlashDev := ⟨true, true, cells, rest, false, 0, 0⟩

/-- An update of device 0 in a stage, into slot A. -/
def update0 (st : UpdateStage) : Update :=
  { stage := st, background := false, via := none, length := 4848, next := 4848, dev := 0, slot := 0, second := none, seq := 0, digest := [],
    c0Erased := false }

theorem witness_ImagesUpdated_Begin :
    (let s := flashed [flashDev0 [] none, flashDev0 [] none] none
     s.flash.update = none ∧ (checkHeader s.activeOwner s.fixed.uid.toNat containerHead).toOption = some (slateHeader containerHead) ∧
       s.workingDevs = [0, 1] ∧ (s.flashDev 0).rest = none) ∧
    (let s := flashed [] none
     (match checkHeader s.activeOwner s.fixed.uid.toNat [] with
       | .error e => e.step == 2
       | .ok _ => false) = true ∧
     (match checkHeader unbound.activeOwner s.fixed.uid.toNat containerHead with
       | .error e => e.step == 3
       | .ok _ => false) = true) := by decide +kernel

theorem witness_ImagesUpdated_Data :
    (flashed [flashDev0 [] (some (0, []))] (some (update0 .erasing))).flash.update = some (update0 .erasing) ∧
    (∀ n ∈ [0, 1],
      let u := { update0 .receiving with next := 4847 }
      let s := flashed [flashDev0 [] none] (some u)
      s.flash.update = some u ∧ u.next + (zeros n).length ≤ u.length ∧ (s.flashDev u.dev).works = true ∧ (s.flashDev u.dev).rest = none ∧
        u.length < 4847 + (zeros 2).length) ∧
    (flashed [] none).flash.update = none ∧
    (let s := flashed [flashDev0 [] none] (some (update0 .receiving))
     (s.readBackFails (s.updateImage (update0 .receiving)) (update0 .receiving)).isSome = true) := by decide +kernel

/-- The container, with its firmware. -/
def image0 : Octets := containerHead ++ containerTail ++ code0

/-- The FIRMWARE record of the container. -/
def firm0 : FwRec :=
  { version := 1, vendorKey := pubKey, codeHash := slice 604 48 image0, signature := slice 652 96 image0, signed := slice 488 164 image0,
    code := code0 }

/-- What the container's records say. -/
def conf1 : Conf :=
  { Conf.empty with
    parts := [{ part := 0, isolated := false, haltOnNan := false, tenantPrograms := false, clusterMask := 0, lineMask := 0, weights := [0, 0, 0, 0],
                keyFirst := 0, keyCount := 0, syncFirst := 0, syncCount := 0, groupFirst := 0, groupCount := 0, streamFirst := 0, streamCount := 0,
                cache := [0, 0], dma := [0, 0, 0, 0], progKeyHash := zeros 48, pairs := [] }]
    fw := some firm0 }

theorem sha_chunks (a b : Nat) (h : List Word64) (x : Octets) : shaBlocks (a + b) h x = shaBlocks b (shaBlocks a h x) (x.drop (128 * a)) := by
  induction a generalizing h x with
  | zero => simp [shaBlocks]
  | succ n ih =>
    rw [show n + 1 + b = (n + b) + 1 by omega, shaBlocks, shaBlocks, ih, List.drop_drop, show 128 + 128 * n = 128 * (n + 1) by omega]

/-- SHA-384 without its local name. -/
theorem sha384_eq (x : Octets) : sha384 x = ((shaBlocks ((shaPad x).length / 128) shaInit (shaPad x)).take 6).flatMap (fun w => beBytes 8 w.toNat) := rfl

theorem test_tail_sha_0 : shaBlocks 12 shaInit (shaPad (slice 320 4528 image0)) =
    [6151794007879793756, 17137360472939596660, 16716277896568090021, 6015152382924233540,
     6592738608847582809, 15136379951770339350, 15636200326203077011, 17157003666411405416] := by decide +kernel

theorem test_tail_sha_1 : shaBlocks 12 [6151794007879793756, 17137360472939596660, 16716277896568090021, 6015152382924233540,
     6592738608847582809, 15136379951770339350, 15636200326203077011, 17157003666411405416]
    ((shaPad (slice 320 4528 image0)).drop (128 * 12)) =
    [3934923724018890678, 8603748089861725337, 10021191279060494596, 10491637171552785650,
     12637529574839928379, 15421734374144283542, 16436310041572078781, 4199514890794605645] := by decide +kernel

theorem test_tail_sha_2 : shaBlocks 12 [3934923724018890678, 8603748089861725337, 10021191279060494596, 10491637171552785650,
     12637529574839928379, 15421734374144283542, 16436310041572078781, 4199514890794605645]
    ((shaPad (slice 320 4528 image0)).drop (128 * (12 + 12))) =
    [12711535315104936135, 15502551979788875820, 13062296552327737128, 5899518162553790509,
     5341602461303546292, 12852235578558659540, 1389548591081097997, 10760497645065852820] := by decide +kernel

theorem test_tail_sha : sha384 (slice 320 (4848 - 320) image0) = (slateHeader (image0.take 320)).digest := by
  have n : (shaPad (slice 320 (4848 - 320) image0)).length / 128 = 12 + 12 + 12 := by decide +kernel
  rw [sha384_eq, n, sha_chunks, sha_chunks, test_tail_sha_0, test_tail_sha_1, test_tail_sha_2]
  decide +kernel

theorem test_code_sha_0 : shaBlocks 11 shaInit (shaPad code0) =
    [8842283822234380469, 6556348314440707227, 1724272201199802636, 12735378983979795805,
     2774900746232571105, 5636853533580969944, 6336388061306714284, 17979560505242906927] := by decide +kernel

theorem test_code_sha_1 : shaBlocks 11 [8842283822234380469, 6556348314440707227, 1724272201199802636, 12735378983979795805,
     2774900746232571105, 5636853533580969944, 6336388061306714284, 17979560505242906927] ((shaPad code0).drop (128 * 11)) =
    [6452507835593844840, 93152716840594872, 1537181304219909401, 12450838754069008956, 17480543518649671317,
     6641311583787231751, 4074522085880836892, 18029878768656215808] := by decide +kernel

theorem test_code_sha_2 : shaBlocks 11 [6452507835593844840, 93152716840594872, 1537181304219909401, 12450838754069008956,
     17480543518649671317, 6641311583787231751, 4074522085880836892, 18029878768656215808] ((shaPad code0).drop (128 * (11 + 11))) =
    [10908183169974408468, 1322885412641939834, 8221044021921439217, 6001246783891046035,
     13531722933608494117, 14527678448598945156, 15962286774745991019, 9660868927836769043] := by decide +kernel

theorem test_code_sha : sha384 firm0.code = firm0.codeHash := by
  have n : (shaPad code0).length / 128 = 11 + 11 + 11 := by decide +kernel
  show sha384 code0 = _
  rw [sha384_eq, n, sha_chunks, sha_chunks, test_code_sha_0, test_code_sha_1, test_code_sha_2]
  decide +kernel

theorem test_directory : (checkDirectory image0 2 4848).toOption = some [⟨0x0101, 0, 352, 136⟩, ⟨0x01F0, 0, 488, 4360⟩] := by decide +kernel

theorem test_records : (parseRecords [(0x0101, 352, slice 352 136 image0), (0x01F0, 488, slice 488 4360 image0)] .empty).toOption = some conf1 := by
  decide +kernel

/-- The bound device with the container in slot A of device 0. -/
def received : State := flashed [flashDev0 (cellsOf 0xFF 0 (containerHead ++ containerTail)) none] (some (update0 .receiving))

theorem test_firmware : (checkFirmware received.fixed.vendorKeyHash 488 conf1).toOption = some () := by
  have h : beNat (sha384 firm0.vendorKey) = received.fixed.vendorKeyHash.toNat ∧ ecdsaVerify firm0.vendorKey firm0.signed firm0.signature = true := by
    decide +kernel
  show (do need 9 504 (beNat (sha384 firm0.vendorKey) == received.fixed.vendorKeyHash.toNat)
           need 9 604 (sha384 firm0.code == firm0.codeHash)
           need 9 652 (ecdsaVerify firm0.vendorKey firm0.signed firm0.signature) : Checked Unit).toOption = some ()
  rw [h.1, h.2, test_code_sha]
  simp [need, Except.toOption, bind, Except.bind]

theorem ok_of_some {α : Type} {x : Checked α} {a : α} (h : x.toOption = some a) : x = .ok a := by
  cases x <;> simp_all [Except.toOption]

theorem body_ok {v : BitVec 384} {h : SlateHeader} {img : Octets} {ds : List DirEntry} {c : Conf}
    (a : sha384 (slice 320 (h.length - 320) img) = h.digest) (b : checkDirectory img h.count h.length = .ok ds)
    (r : parseRecords (ds.map (fun d => (d.type, d.offset, slice d.offset d.length img))) .empty = .ok c)
    (f : checkFirmware v (placeOf ds 0x01F0 0) c = .ok ()) (x : checkCross ds c = .ok ()) : checkBody v h img = .ok (c, ds) := by
  simp [checkBody, need, a, b, r, f, x, bind, Except.bind]

theorem read_back_ok {s : State} {img : Octets} {u : Update} {y : Conf × List DirEntry} (l : (slateHeader (img.take 320)).length = u.length)
    (b : checkBody s.fixed.vendorKeyHash (slateHeader (img.take 320)) img = .ok y) : s.readBackFails img u = none := by
  simp [State.readBackFails, l, b]

theorem test_header : (slateHeader (image0.take 320)).length = 4848 ∧ (slateHeader (image0.take 320)).count = 2 := by decide +kernel

theorem test_cross : (checkCross [⟨0x0101, 0, 352, 136⟩, ⟨0x01F0, 0, 488, 4360⟩] conf1).toOption = some () := by decide +kernel

theorem test_received : received.updateImage (update0 .receiving) = image0 := by decide +kernel

theorem witness_ImagesUpdated_End : received.readBackFails (received.updateImage (update0 .receiving)) (update0 .receiving) = none := by
  rw [test_received]
  refine read_back_ok test_header.1 (body_ok (ds := [⟨0x0101, 0, 352, 136⟩, ⟨0x01F0, 0, 488, 4360⟩]) (c := conf1) ?_ ?_
    (ok_of_some test_records) (ok_of_some test_firmware) (ok_of_some test_cross))
  · rw [test_header.1]
    exact test_tail_sha
  · rw [test_header.1, test_header.2]
    exact ok_of_some test_directory

/-- A booted image on device 0. -/
def booted : Candidate := ⟨0, 0, 5, 4848, zeros 48⟩

theorem witness_ImagesUpdated_Rest :
    ((flashed [flashDev0 [] none, flashDev0 [] none] none).flashDev (0 : Fin 2).val).rest = none ∧
    (∀ st ∈ [UpdateStage.programming, .commit1],
      let s := flashed [flashDev0 [] (some (100, zeros 2))] (some (update0 st))
      (s.flashDev (0 : Fin 2)).rest = some (100, zeros 2) ∧ s.flash.update = some (update0 st) ∧ 100 < logBase ∧ (update0 st).second = none) ∧
    (let u := update0 .commit0
     let s := flashed [flashDev0 [] (some (100, zeros 2))] (some u)
     (s.flashDev (0 : Fin 2)).rest = some (100, zeros 2) ∧ s.flash.update = some u ∧ 100 < logBase ∧ u.c0Erased = false) ∧
    (let u := { update0 .copying with second := some (1, 1) }
     let s := flashed [flashDev0 [] none, flashDev0 [] none] (some u)
     s.flash.update = some u ∧ u.dev ≠ 1 ∧ (s.flashDev 1).works = true) ∧
    (let s := flashed [flashDev0 [] none, flashDev0 [] none] none
     let s : State := { s with boot := { s.boot with image := some booted, phase := .ready } }
     s.boot.image = some booted ∧ s.boot.phase = .ready ∧ (s.flashDev (1 - booted.dev)).works = true ∧ s.flash.update = none ∧
       highestCommit (s.flashDev (1 - booted.dev)).cells = none) ∧
    (let w : LogWait := ⟨5, 0, 0x0302, zeros 4, [0]⟩
     let s := flashed [flashDev0 [] none, flashDev0 [] none] none
     let s : State := { s with flash := { s.flash with waiting := [w] } }
     s.flash.waiting = [w] ∧ w.devs = [(0 : Fin 2).val] ∧ (s.flashDev (0 : Fin 2)).works = true ∧ (s.flashDev (0 : Fin 2)).logBusy = false) := by
  decide +kernel

/-! ### Partitions and mirrors -/

/-- The record of a partition without resources. -/
def bare (p : Nat) : PartRec :=
  { part := p, isolated := false, haltOnNan := false, tenantPrograms := false, clusterMask := 0, lineMask := 0, weights := [0, 0, 0, 0],
    keyFirst := 0, keyCount := 0, syncFirst := 0, syncCount := 0, groupFirst := 0, groupCount := 0, streamFirst := 0,
    streamCount := 0, cache := [0, 0], dma := [0, 0, 0, 0], progKeyHash := zeros 48, pairs := [] }

/-- The bound device at 50 s with a booted image that slot 5 has signed, and partition 1 in a state. -/
def reloadable (st : PState) (l : List PartRec) : State :=
  { bound { KeyStore.reset with derived := [(5, zeros 32)] } with
    conf := { Conf.empty with parts := l }, quartz := { Quartz.reset with set := true, secs := 50 },
    boot := { Boot.reset with phase := .ready, image := some booted, version := 1, imageMac := cmac (zeros 32) [] } }.updPart 1
    (fun q => { q with state := st })

/-- A reload (0x0D03) or release (0x0D04) of partition 1, number 7, that expires at 50 s. -/
def change (type records : Nat) (x : Octets) : Octets :=
  signed (beBytes 2 type ++ zeros 2 ++ beBytes 4 (144 + x.length) ++ beBytes 8 1 ++ beBytes 4 1 ++ [1] ++ zeros 3 ++ beBytes 4 7 ++ zeros 4 ++
    beBytes 8 50 ++ beBytes 4 records ++ zeros 4 ++ x)

/-- A PARTITION record of partition 1 without resources. -/
def bareOctets : Octets := beBytes 2 0x0101 ++ zeros 2 ++ beBytes 4 136 ++ [1] ++ zeros 127

/-- A group of partition 2 that is past its headroom. -/
def wideGroup : Conf :=
  { Conf.empty with
    parts := [{ bare 2 with weights := [16, 0, 0, 0], groupFirst := 1, groupCount := 1 }], groups := [⟨2, { siteGroup with w := 32, p := 30 }⟩] }

theorem witness_PartitionsChange_Reload :
    (let s := { reloadable .free [] with conf := wideGroup }
     (s.reloadStatus (change 0x0D03 1 bareOctets)).1 = some .notPermitted ∧
       s.reloadOverflows (change 0x0D03 1 bareOctets) (s.reloadStatus (change 0x0D03 1 bareOctets)).2 = true) ∧
    ((ready.reloadStatus []).1 = some .badDescriptor ∧ ((reloadable .starting [bare 1]).reloadStatus (change 0x0D03 1 bareOctets)).1 = some .notPermitted ∧
      (reloadable .starting [bare 1]).reloadOverflows (change 0x0D03 1 bareOctets)
        ((reloadable .starting [bare 1]).reloadStatus (change 0x0D03 1 bareOctets)).2 = false) ∧
    (let s := reloadable .free []
     (s.reloadStatus (change 0x0D03 1 bareOctets)).1 = none ∧ reloadPart (change 0x0D03 1 bareOctets) = 1 ∧ (s.part 1).state = .free ∧
       s.awakeFor (s.reloadStatus (change 0x0D03 1 bareOctets)).2 = true) ∧
    (let s := reloadable .active [bare 1]
     (s.reloadStatus (change 0x0D03 1 bareOctets)).1 = none ∧ (s.part 1).state = .active) := by decide +kernel

theorem witness_PartitionsChange_Release :
    (ready.releaseStatus [] = some .badDescriptor ∧ (reloadable .free []).releaseStatus (change 0x0D04 0 []) = some .notPermitted) ∧
    ((reloadable .active [bare 1]).releaseStatus (change 0x0D04 0 []) = none ∧ reloadPart (change 0x0D04 0 []) = 1) ∧
    (reloadable .halted [bare 1]).releaseStatus (change 0x0D04 0 []) = none := by decide +kernel

theorem witness_PartitionsChange_Busy : ∀ st ∈ [PState.starting, .reloading, .scrubbing],
    ((reloadable st []).part (reloadPart (change 0x0D03 1 bareOctets))).state ∈ [PState.starting, .reloading, .scrubbing] ∧
      (reloadable st []).reloadOverflows (change 0x0D03 1 bareOctets) ((reloadable st []).reloadStatus (change 0x0D03 1 bareOctets)).2 = false :=
        by decide +kernel

/-- The tenant in a state, with these old windows to scrub. -/
def leaving (st : PState) : State :=
  tenant.updPart 1 (fun q => { q with state := st, scrubbing := [(tenantRec, [win 3 3 0 65536 131072])] })

theorem witness_PartitionsChange_Rest :
    (∀ up ∈ [true, false],
      let s := (tenantIn .starting).updPort 0 (fun q => { q with inService := up })
      (s.part (1 : PartId)).state = .starting ∧ s.boot.phase = .ready ∧ (s.installSlots (1 : PartId)).isSome = true ∧ s.bringUpFails 1 = !up) ∧
    ((tenant.part (1 : PartId)).state ≠ .starting ∧ ready.boot.phase = .ready) ∧
    (let s := leaving .reloading
     (s.part (1 : PartId)).state = .reloading ∧ (s.part (1 : PartId)).newWindows = none ∧
       (s.part (1 : PartId)).scrubbing = [(tenantRec, [win 3 3 0 65536 131072])] ∧ (s.part (1 : PartId)).inStep = false ∧
       s.conf.partOf (1 : PartId) = some tenantRec ∧
       noResources tenantRec { s.conf with windows := s.windows 1, limits := s.conf.limits.filter (fun l => l.part == 1) } = false) ∧
    (let s := leaving .scrubbing
     (s.part (1 : PartId)).state = .scrubbing ∧ (s.part (1 : PartId)).scrubbing = [(tenantRec, [win 3 3 0 65536 131072])]) ∧
    (let s := tenant.updPart 1 (fun q => { q with newWindows := some [win 0 3 0 0 4096] })
     (s.part (1 : PartId)).newWindows = some [win 0 3 0 0 4096] ∧ (∀ w ∈ [win 0 3 0 0 4096], w.part = (1 : PartId).val) ∧
       s.accessesOpen (1 : PartId) = false) ∧
    (tenant.part (1 : PartId)).newWindows = none := by decide +kernel

/-- A mirror of partition 1 with a job. -/
def mirror0 (j : Option MirrorJob) : Mirror := ⟨1, [0], [false], 0, 0, none, j, none, false⟩

/-- A job at a stage that has read these octets. -/
def job0 (st : MirrorStage) (x : Octets) : MirrorJob := { State.freshJob st with reads := [(0, x)] }

/-- The tenant in a mirroring state with that mirror, and a window of 16 octets to mirror. -/
def mirroring0 (st : MirrorState) (j : Option MirrorJob) : State :=
  { tenant.updPart 1 (fun q => { q with mirror := st }) with
    mirrors := [mirror0 j], conf := { tenantConf with windows := [win 12 3 0 0 16] } }

/-- A commit of the tenant's mirror. -/
def commit0 (len : Nat) : MirrorCommitRec := ⟨0, 5, 1, 3, 1, len⟩

theorem witness_MirrorsKept :
    (let s := mirroring0 .mirrored (some (job0 .copy1 []))
     s.mirrorOf (1 : PartId) = some (mirror0 (some (job0 .copy1 []))) ∧ (job0 .copy1 []).failed = false ∧ (job0 .copy1 []).left = [] ∧
       (job0 .copy1 []).pages = [] ∧ (s.mirrorOf (1 : PartId)).bind Mirror.job = some (job0 .copy1 []) ∧ State.mirroring .copy1 = true) ∧
    (((mirroring0 .mirrored none).mirrorOf (1 : PartId)).bind Mirror.job = none) ∧
    (∀ st ∈ [MirrorState.lagging, .heldBack],
      let s := mirroring0 st (some (job0 .probe (zeros 256)))
      s.mirrorOf (1 : PartId) = some (mirror0 (some (job0 .probe (zeros 256)))) ∧ (job0 .probe (zeros 256)).left = [] ∧
        (s.part (1 : PartId)).mirror = st ∧ countingCopy (1 : PartId) (slice 0 128 (State.jobData (job0 .probe (zeros 256))))
          (slice 128 128 (State.jobData (job0 .probe (zeros 256)))) = none) ∧
    (let x := mirrorCommitBytes 1 (commit0 44) ++ zeros 128
     (countingCopy (1 : PartId) (slice 0 128 (State.jobData (job0 .probe x))) (slice 128 128 (State.jobData (job0 .probe x)))).isSome = true) ∧
    ((1 ≤ (1 : PartId).val) ∧ (tenant.part (1 : PartId)).mirror ≠ .heldBack ∧ ((mirroring0 .heldBack none).part (1 : PartId)).mirror = .heldBack) ∧
    (∀ len ∈ [44, 1048576],
      let j := job0 .restoreCommit (mirrorCommitBytes 1 (commit0 len) ++ zeros 128)
      let s := mirroring0 .restoring (some j)
      s.mirrorOf (1 : PartId) = some (mirror0 (some j)) ∧ (s.part (1 : PartId)).mirror = .restoring ∧ j.failed = false ∧ j.left = [] ∧
        countingCopy (1 : PartId) (slice 0 128 (State.jobData j)) (slice 128 128 (State.jobData j)) = some (commit0 len)) ∧
    (let j := job0 .restoreCommit (zeros 256)
     countingCopy (1 : PartId) (slice 0 128 (State.jobData j)) (slice 128 128 (State.jobData j)) = none) ∧
    (let s := mirroring0 .restoring none
     s.mirrorOf (1 : PartId) = some (mirror0 none) ∧ s.quartz.set = false) := by decide +kernel

/-- The envelope of 16 nines, sealed by the device of UID 1 under a master of zeros. -/
def envelope0 : Octets :=
  [1, 7, 0, 0, 48, 201, 74, 255, 0, 0, 0, 0, 0, 0, 0, 1, 0, 0, 0, 0, 0, 0, 0, 16, 96, 191, 109, 59, 70, 71, 148, 51, 99, 114, 47, 76, 120,
   15, 189, 82, 0, 0, 0, 1, 200, 76, 83, 135, 69, 185, 60, 87, 202, 144, 164, 222, 242, 201, 169, 214]

/-- The partner key of that device and master, and its salt. -/
def partnerKey0 : Octets × Octets :=
  ([78, 46, 173, 255, 237, 207, 44, 54, 43, 240, 148, 217, 107, 7, 137, 17, 194, 38, 104, 209, 27, 46, 174, 89, 27, 47,
    172, 118, 224, 132, 103, 171], [48, 201, 74, 255])

/-- A bulk message of partition 1. -/
def bulk0 (isSeal : Bool) (purpose : Nat) : BulkJob :=
  ⟨0, 0, 1, isSeal, true, false, zeros 16, purpose, 0, envelope0, 0, partnerKey0.1, partnerKey0.2, 1⟩

/-- What a restore has read before its pages. -/
def restored0 : RestoredState := ⟨3, [], [], [false], 1⟩

/-- The job that the bulk message belongs to. -/
def bulkJob0 (isSeal : Bool) : MirrorJob :=
  { State.freshJob (if isSeal then .pages else .restorePages) with pages := [0], commit := some (commit0 44), record := some restored0 }

/-- The mirrored tenant with a bulk message in a cipher core. -/
def bulky (isSeal : Bool) (purpose : Nat) : State :=
  { mirroring0 (if isSeal then .mirrored else .restoring) (some (bulkJob0 isSeal)) with
    keys := { KeyStore.reset with bulk := [bulk0 isSeal purpose] } }

theorem test_open_envelope : openEnvelope partnerKey0.1 partnerKey0.2 envelope0 = some (List.replicate 16 9) := by decide +kernel

theorem witness_MirrorsKept_Bulk :
    (∀ q ∈ [true, false],
      let s := bulky q (if q then 0 else 3)
      s.keys.bulk.find? (fun x => x.id == 0 && x.started) = some (bulk0 q (if q then 0 else 3)) ∧
        s.mirrorOf 1 = some (mirror0 (some (bulkJob0 q))) ∧ (bulk0 q (if q then 0 else 3)).aborted = false ∧
        (bulk0 q (if q then 0 else 3)).key ≠ []) ∧
    (let s := bulky false 3
     (bulkJob0 false).pages = [(bulk0 false 3).arg] ∧ (bulkJob0 false).record = some restored0 ∧
       State.pageRange (s.mirrored 1) 0 = (0, 16) ∧ noMatrixOpen s) := by decide +kernel

theorem witness_MirrorsKept_Open :
    openEnvelope partnerKey0.1 partnerKey0.2 envelope0 = some (List.replicate 16 9) ∧ (List.replicate 16 (9 : Byte)).length = (0, 16).2 :=
  ⟨test_open_envelope, rfl⟩

/-! ### Sessions and the mailbox -/

/-- A session of number 5 whose keys are zeros, after a HELLO and a CHALLENGE of three octets each. -/
def session0 (isOpen : Bool) (rxSeq : Nat) : Session :=
  { id := 5, isOpen := isOpen, serial := 0, notAfter := 100, opKeyPoint := pubKey, hello := zeros 3, challenge := zeros 3,
    opKey := zeros 32, opSalt := zeros 4, devKey := zeros 32, devSalt := zeros 4, rxSeq := rxSeq, txSeq := 0, assembling := none }

/-- The bound device after Ready with these sessions, links up, and a DRBG. -/
def served (l : List Session) : State :=
  { bound { KeyStore.reset with derived := [(6, zeros 32)], drbg := some ⟨zeros 32, zeros 16, 1⟩ } with
    tocsin := ⟨[true, true], [0, 0], l, 0⟩, quartz := { Quartz.reset with set := true, secs := 100 } }

/-- A HELLO of an operator whose certificate ends at 100 s and whose ephemeral point is the generator. -/
def helloBody : Octets :=
  signed (beBytes 2 0x0D0B ++ beBytes 2 212 ++ beBytes 4 1 ++ beBytes 8 100 ++ pubKey ++ zeros 3) ++ pubKey ++ zeros 3

theorem witness_SessionsServed_Hello :
    (let s := served []
     helloBody.length = 312 ∧ s.fwServes = true ∧ s.helloOk helloBody = true ∧ s.derivedKey 6 = some (zeros 32) ∧
       p384Decode (slice 212 97 helloBody) = p384G ∧ (s.freeScalar.2.freeScalar.2.drbg 16).isSome = true) ∧
    ((5 ≠ 0 ∨ (zeros 311).length ≠ 312) ∧ (zeros 312).length = 312 ∧ State.reset.fwServes = false ∧ (served []).helloOk (zeros 312) = false) := by
  decide +kernel

theorem witness_SessionsServed_Proof :
    ((zeros 95).length ≠ 96) ∧
    (let s := served [session0 false 0]
     let x := ecdsaSign 1 1 (zeros 6)
     x.length = 96 ∧ s.session 5 = some (session0 false 0) ∧ (session0 false 0).isOpen = false ∧
       ecdsaVerify pubKey ((session0 false 0).hello ++ (session0 false 0).challenge) x = true ∧
       ecdsaVerify pubKey ((session0 false 0).hello ++ (session0 false 0).challenge) (zeros 96) = false) ∧
    ((zeros 96).length = 96 ∧ (served []).session 5 = none) := by decide +kernel

/-- The body of a RECORD of sequence 1 that carries 8 zeros, sealed under a key and a salt of zeros. -/
def recordBody : Octets :=
  [42, 193, 36, 34, 244, 118, 103, 212, 169, 0, 93, 161, 145, 255, 244, 149, 145, 67, 232, 181, 129, 51, 96, 145, 210, 120, 30, 248,
   204, 172, 122, 4, 223, 122, 37, 182, 218, 96, 244, 241]

/-- The body of a CLOSE of sequence 1 under the same key. -/
def closeBody : Octets := [28, 47, 229, 71, 29, 60, 190, 177, 84, 181, 106, 156, 63, 161, 31, 45]

theorem witness_SessionsServed_Sealed :
    (let s := served [session0 true 0]
     let f : TocsinFrame := ⟨5, 1, recordBody⟩
     s.session f.session = some (session0 true 0) ∧ f.session ≠ 0 ∧ (session0 true 0).isOpen = true ∧ (session0 true 0).rxSeq < f.seq ∧
       16 ≤ f.body.length ∧ 8 ≤ (zeros 8).length ∧
       gcmOpen (zeros 32) (zeros 4 ++ beBytes 8 f.seq) (frameHead 0x20 f) (f.body.take (f.body.length - 16)) (f.body.drop (f.body.length - 16)) =
         some (carrierBytes (zeros 8))) ∧
    (let f : TocsinFrame := ⟨5, 1, closeBody⟩
     16 ≤ f.body.length ∧ gcmOpen (zeros 32) (zeros 4 ++ beBytes 8 f.seq) (frameHead 0x22 f) (f.body.take (f.body.length - 16))
       (f.body.drop (f.body.length - 16)) = some []) ∧
    ((served [session0 true 1]).session 5 = some (session0 true 1) ∧ 1 ≤ (session0 true 1).rxSeq) ∧
    ((served []).session 5 = none ∧ unbound.activeOwner = none ∧ (served []).activeOwner.isSome = true) := by decide +kernel

/-- An unbound device with a record in clear in the mailbox, its links up. -/
def clear0 : State :=
  { unbound with mail := ⟨[], some ⟨some (0, 1), []⟩, 0, [], 0, []⟩, tocsin := ⟨[true, true], [0, 0], [], 0⟩ }

theorem witness_SessionsServed_Clear :
    (clear0.activeOwner = none ∧ clear0.mail.current = some ⟨some (0, (1 : MgmtPort).val), []⟩ ∧
      clear0.tocsin.links.getD (1 : MgmtPort) false = true) ∧
    (clear0.bindCase (zeros 308)).toOption = none ∧ (clear0.bindCase (bindRecord 0 false)).toOption = some false := by decide +kernel

theorem witness_SessionsServed_Rest :
    ((served [session0 false 0]).session 5 = some (session0 false 0) ∧ (served [session0 true 0]).session 5 = some (session0 true 0)) ∧
    ((served []).quartz.set = true ∧ State.reset.quartz.set = false) ∧
    (beAt 12 2 (zeros 14) ≠ 0x88B6 ∧
      (let x : Octets := zeros 12 ++ [0x88, 0xB6, 1, 0x10] ++ zeros 14
       beAt 12 2 x = 0x88B6 ∧ x.length ≤ 1514 ∧ tocsinHeadOk (x.drop 14) = true ∧ octetAt 1 (x.drop 14) = 0x10)) ∧
    ((served []).fwServes = true ∧ (served []).fwRuns = true ∧ (served []).tocsin.beats.length = 2 ∧ (served []).boot.bootrom = false ∧ State.reset.fwServes = false ∧
      State.reset.fwRuns = false) := by
  decide +kernel

/-- A bound device with this mailbox queue and buffer. -/
def mailing (s : State) (q : List MailIn) (len : Nat) (b : List Host.Cell) : State := { s with mail := ⟨q, none, 0, [], len, b⟩ }

/-- A CHALLENGE record for a debug challenge. -/
def challengeRecord : Octets := [0x0D, 0x12, 0, 8, 1, 0, 0, 0]

theorem witness_MailboxServes :
    (∀ b : Bool,
      let s := mailing (if b then bound heldKeys else unbound) [⟨none, challengeRecord⟩] 0 []
      s.mail.current = none ∧ s.mail.queue = [⟨none, challengeRecord⟩] ∧ State.recordCmd challengeRecord = some .debugChallenge ∧
        s.activeOwner.isSome = b ∧ beAt 0 2 challengeRecord ≠ 0x0D02) ∧
    (let s := mailing unbound [⟨none, [0x0D, 2]⟩] 0 []
     s.mail.queue = [⟨none, [0x0D, 2]⟩] ∧ State.recordCmd [0x0D, 2] = some (.ownerBind [0x0D, 2]) ∧ s.activeOwner = none ∧
       beAt 0 2 [0x0D, 2] = 0x0D02) ∧
    State.recordCmd [] = none ∧
    (let s := mailing (bound heldKeys) [] 8 [(0, 0x0D), (1, 0x12), (3, 8), (4, 1)]
     s.mail.queue = [] ∧ s.activeOwner.isSome = true ∧ State.recordCmd (memRead 0 s.mail.buffer 0 s.mail.length) = some .debugChallenge) ∧
    (readRangeOk 0xFFC 8 0 = false ∧ readRangeOk 0xFFC 4 0 = true ∧ readRangeOk 0x30000 4 63 = true ∧ readRangeOk 0x30000 4 64 = false ∧
      readRangeOk 0x200000 4 0 = true ∧ 0xFFC < 0x200000) ∧
    (0x100000 ≠ 0x100004) := by decide +kernel

/-- The same device with a record of that connection in the mailbox, or with none. -/
def carrying (s : State) (r : Option MailIn) : State := { s with mail := ⟨[], r, 0, [], 0, []⟩ }

theorem witness_MailboxServes_Images :
    (let s := carrying (flashed [flashDev0 [] none, flashDev0 [] none] none) (some ⟨none, []⟩)
     s.flash.update = none ∧ (checkHeader s.activeOwner s.fixed.uid.toNat containerHead).toOption = some (slateHeader containerHead) ∧
       s.workingDevs = [0, 1] ∧ s.mail.current = some ⟨none, []⟩) ∧
    (let s := carrying (flashed [flashDev0 [] none] (some (update0 .erasing))) none
     s.flash.update = some (update0 .erasing) ∧ s.mail.current = none) ∧
    (let s := carrying (flashed [flashDev0 [] none] (some (update0 .receiving))) (some ⟨none, []⟩)
     s.flash.update = some (update0 .receiving) ∧ (update0 .receiving).next + 0 ≤ (update0 .receiving).length ∧ s.mail.current.isSome = true) ∧
    (let s := carrying (flashed [flashDev0 [] (some (100, zeros 2))] (some (update0 .programming))) none
     (s.flashDev (0 : Fin 2)).rest = some (100, zeros 2) ∧ 100 < logBase ∧ s.flash.update = some (update0 .programming) ∧
       (update0 .programming).dev = (0 : Fin 2).val ∧ s.mail.current = none) ∧
    (let u := { update0 .copying with second := some (1, 1) }
     (carrying (flashed [] (some u)) none).flash.update = some u) ∧
    (let s := flashed [flashDev0 [] none, flashDev0 [] none] none
     let s : State := { s with boot := { s.boot with image := some booted, phase := .ready } }
     s.boot.image = some booted ∧ s.boot.phase = .ready ∧ (s.flashDev (1 - booted.dev)).works = true ∧ s.flash.update = none ∧
       highestCommit (s.flashDev (1 - booted.dev)).cells = none) := by decide +kernel

theorem read_back_mail (s : State) (r : Option MailIn) (img : Octets) (u : Update) :
    (carrying s r).readBackFails img u = s.readBackFails img u := rfl

theorem witness_MailboxServes_End :
    (carrying received (some ⟨none, []⟩)).readBackFails (received.updateImage (update0 .receiving)) (update0 .receiving) = none := by
  rw [read_back_mail]
  exact witness_ImagesUpdated_End

theorem witness_MailboxServes_Registers : 0 + 4 ≤ 0x1000000 ∧ 0xFFFFFC + 4 ≤ 0x1000000 := by decide

/-- An event entry. -/
def entry0 : EvEntry := ⟨0x0302, false, none, 5, 0, [1]⟩

theorem witness_MailboxServes_Events :
    State.reset.events.queue = [] ∧
    (∀ w ∈ [0, 65536],
      let s : State := { ready with events := ⟨[⟨0, false, [entry0]⟩], [], w, 0, 0⟩ }
      s.events.queue = [⟨0, false, [entry0]⟩] ∧ s.events.ring.length < 65536 ∧
        (serialDiff 32 s.events.writeSeq s.events.readSeq == 65536) = (w == 65536)) ∧
    (let s : State := { ready with events := ⟨[⟨0, false, List.replicate 5 entry0⟩], [], 2 ^ 32 - 1, 0, 0⟩ }
     s.events.queue = [⟨0, false, List.replicate 5 entry0⟩] ∧ 5 ≤ (List.replicate 5 entry0).length ∧ s.events.writeSeq < 2 ^ 32) := by decide +kernel

/-! ### Operands out of range: every check of WellFormed refuses a term -/

/-- A PEAL_START in range. -/
def peal0 : PealStart := ⟨0, .reduce, .fp32, .fp32, false, false, 0, 0, 0, List.replicate 6 0, 0, 0, 0, 0⟩

/-- Six zeros. -/
def six0 : List Nat := List.replicate 6 0

/-- A well-formed group definition. -/
def group0 : GroupDef := ⟨0, 1, 1, 1, 1, six0, 32, 0, six0, six0, six0, 0, 1, 0, 0⟩

/-- Eight octets of Basalt. -/
def op8 : MemOp := ⟨.basalt, 0, 8, 0⟩

/-- An atomic on them. -/
def atomic8 : AtomicArgs := ⟨.fetchAdd, 8, 0, 0⟩

/-- A PROG_LOAD BEGIN in range. -/
def begin1 : ProgBegin := ⟨0, 0, 0, 0, 0, 0, 0, zeros 97⟩

/-- A PROG_INVOKE in range. -/
def invoke1 : ProgInvoke := ⟨0, 0, false, 0, 0, List.replicate 8 0⟩

/-- A TENSOR_LOAD in range. -/
def tensor1 : TensorLoad := ⟨.basalt, 0, .basalt, 0, 0, 0, 0⟩

/-- A Carillon message in range. -/
def msg0 : CarMsg := ⟨0, 0, 0, 0, 0, 0, 0, 0, 0, 0, .ok, []⟩

/-- An originated context. -/
def key0 : CtxKey := ⟨false, 16, 0⟩

theorem test_wf_good :
    ([.pealStart hdr peal0, .groupDefine hdr group0, .memGet hdr op8, .memAtomic hdr op8 atomic8, .progLoadBegin hdr begin1,
      .progInvoke hdr invoke1, .tensorPlace hdr tensor1, .exponentUp 1 msg0, .dataSegmentRx 0 (seg false 0) [], .ackBlockRx 0 [record 0],
      .streamOpenRx 0 (seg false 0) (control .ok 0), .retxTimer key0, .startStageEnd allPass, .lineFrameRx 0 ⟨[(0, List.replicate 2125 31)]⟩,
        .ppsInEdge ⟨100, 19⟩,
      .ssum 0 ⟨false, 127, 31, 31, 31⟩, .registerWrite (.csr 0 4095) 0, .entropyRetest (goodSamples 4096)] : List Instr).all Instr.wf = true := by
  decide +kernel

theorem test_wf_headers :
    ([{ hdr with vlan := 0 }, { hdr with vlan := 4095 }, { hdr with stream := 2 ^ 20 }, { hdr with units := 37 }] : List DescHdr).all
      (fun h => !(Instr.soRead h 0).wf) = true := by decide +kernel

theorem test_wf_descriptors :
    ([.pealStart hdr { peal0 with inFmt := .uint8 }, .pealStart hdr { peal0 with outFmt := .uint32 }, .pealStart hdr { peal0 with group := 4096 },
      .pealStart hdr { peal0 with peal := 2 ^ 32 }, .pealStart hdr { peal0 with count := 2 ^ 32 }, .pealStart hdr { peal0 with root := 2 ^ 32 },
      .pealStart hdr { peal0 with coord := [] }, .pealStart hdr { peal0 with coord := List.replicate 6 256 },
      .pealStart hdr { peal0 with addSync := true, sync := 16384 }, .pealStart hdr { peal0 with src := 2 ^ 64 },
      .pealStart hdr { peal0 with dst := 2 ^ 64 }, .pealStart hdr { peal0 with addSync := true, syncAmount := 2 ^ 32 },
      .pealStart hdr { peal0 with syncAmount := 1 }, .pealStatus hdr ⟨4096, 0, 0, 0⟩, .pealStatus hdr ⟨0, 2 ^ 32, 0, 0⟩,
      .pealStatus hdr ⟨0, 0, 2 ^ 32, 0⟩, .pealStatus hdr ⟨0, 0, 0, 65536⟩, .groupDefine hdr { group0 with group := 4096 },
      .groupDefine hdr { group0 with axisCount := 256 }, .groupDefine hdr { group0 with axisMask := 256 },
      .groupDefine hdr { group0 with mode := 256 }, .groupDefine hdr { group0 with policy := 256 }, .groupDefine hdr { group0 with w := 256 },
      .groupDefine hdr { group0 with p := 256 }, .groupDefine hdr { group0 with low := [] }, .groupDefine hdr { group0 with slice := 256 },
      .groupDefine hdr { group0 with deadline := 2 ^ 32 }, .groupDefine hdr { group0 with quorumMin := 65536 },
      .groupDefine hdr { group0 with proj := 65536 }, .groupRemove hdr 4096] : List Instr).all (fun c => !c.wf) = true := by decide +kernel

theorem test_wf_memory :
    ([.memGet hdr { op8 with cluster := 1 }, .memGet hdr { op8 with space := .scratch, cluster := 16 }, .memGet hdr { op8 with space := .coreData },
      .memGet hdr { op8 with addr := 2 ^ 64 }, .memGet hdr { op8 with length := 0 }, .memGet hdr { op8 with length := 8193 },
      .memPut hdr op8 [], .memAtomic hdr { op8 with length := 4 } atomic8, .memAtomic hdr op8 { atomic8 with width := 2 },
      .memAtomic hdr op8 { atomic8 with a := 2 ^ 64 }, .memAtomic hdr op8 { atomic8 with op := .compareSwap, b := 2 ^ 64 },
      .memAtomic hdr op8 { atomic8 with b := 1 }, .soAdd hdr 16384 0, .soAdd hdr 0 (2 ^ 32), .soWaitGe hdr 0 (2 ^ 32) 0, .soWaitGe hdr 0 0 (2 ^ 32),
      .soReset hdr 16384, .stepEnd hdr (2 ^ 64), .counterRead hdr 256 0 0, .counterRead hdr 0 (2 ^ 32) 0, .counterRead hdr 0 0 65536,
      .hintNextEvent hdr (2 ^ 48) 0, .hintNextEvent hdr 0 (2 ^ 32)] : List Instr).all (fun c => !c.wf) = true := by decide +kernel

theorem test_wf_programs :
    ([.progLoadBegin hdr { begin1 with index := 256 }, .progLoadBegin hdr { begin1 with clusters := 65536 },
      .progLoadBegin hdr { begin1 with cores := 256 }, .progLoadBegin hdr { begin1 with entry := 2 ^ 32 },
      .progLoadBegin hdr { begin1 with textLen := 2 ^ 32 }, .progLoadBegin hdr { begin1 with dataLen := 2 ^ 32 },
      .progLoadBegin hdr { begin1 with watchdog := 2 ^ 32 }, .progLoadBegin hdr { begin1 with pubKey := [] }, .progLoadData hdr 256 0 [0],
      .progLoadData hdr 0 (2 ^ 32) [0], .progLoadData hdr 0 0 [], .progLoadData hdr 0 0 (zeros 8193), .progLoadEnd hdr 0 [],
        .progLoadEnd hdr 256 (zeros 96),
      .progImageSwap 1 256, .progInvoke hdr { invoke1 with index := 256 }, .progInvoke hdr { invoke1 with cluster := 16 },
      .progInvoke hdr { invoke1 with addSync := true, sync := 16384 }, .progInvoke hdr { invoke1 with addSync := true, syncAmount := 2 ^ 32 },
      .progInvoke hdr { invoke1 with args := [] }, .progInvoke hdr { invoke1 with sync := 1 },
        .tensorPlace hdr { tensor1 with srcSpace := .coreData },
      .tensorPlace hdr { tensor1 with dstSpace := .coreData }, .tensorPlace hdr { tensor1 with srcCluster := 256 },
      .tensorPlace hdr { tensor1 with dstCluster := 256 }, .tensorPlace hdr { tensor1 with src := 2 ^ 64 },
      .tensorPlace hdr { tensor1 with dst := 2 ^ 64 }, .tensorExpand hdr { tensor1 with capacity :=
        2 ^ 32 }] : List Instr).all (fun c => !c.wf) = true := by
  decide +kernel

theorem test_wf_carillon :
    ([.nodeCompletionRx 0 4096 ⟨0, .ok, 0, 0, none⟩ [], .nodeCompletionRx 0 1 ⟨256, .ok, 0, 0, none⟩ [],
      .nodeCompletionRx 0 1 ⟨0, .ok, 0, 2 ^ 20, none⟩ [],
      .contributionReadDone 1 4096 0 0 false 0, .contributionReadDone 1 0 (2 ^ 32) 0 false 0, .contributionReadDone 1 0 0 (2 ^ 32) false 0,
      .contributionReadDone 1 0 0 0 false (2 ^ 32), .resultWriteDone 1 4096 0 0 0, .exponentUp 1 { msg0 with stream := 2 ^ 20 },
      .exponentUp 1 { msg0 with group := 4096 }, .exponentUp 1 { msg0 with fingerprint := 2 ^ 32 }, .exponentUp 1 { msg0 with peal := 2 ^ 32 },
      .exponentUp 1 { msg0 with chunk := 2 ^ 32 }, .exponentUp 1 { msg0 with sender := 256 }, .exponentUp 1 { msg0 with contributors := 2 ^ 32 },
      .exponentUp 1 { msg0 with length := 2 ^ 32 }, .exponentUp 1 { msg0 with offset := 2 ^ 32 }, .pealDeadline 1 4096 0,
      .pealRemoteDeadline 1 0 (2 ^ 32), .ssum 0 ⟨false, 128, 0, 0, 0⟩, .ssum 0 ⟨false, 0, 32, 0, 0⟩, .ssum 0 ⟨false, 0, 0, 32, 0⟩,
      .ssum 0 ⟨false, 0, 0, 0, 32⟩, .registerWrite (.csr 0 4096) 0, .registerWrite (.mgmt 2) 0, .registerWrite (.mgmt 0x2000000) 0,
      .cvDataWrite 0 3 0, .adderGroupFault 0 (some (1, 4096, 0, 0)), .adderGroupFault 0 (some (1, 0, 2 ^ 32, 0)),
      .adderGroupFault 0 (some (1, 0, 0, 2 ^ 32))] : List Instr).all (fun c => !c.wf) = true := by decide +kernel

theorem test_wf_lines :
    ([.dataSegmentRx 0 { seg false 0 with stream := 2 ^ 20 } [], .dataSegmentRx 0 { seg false 0 with epoch := 256 } [],
      .dataSegmentRx 0 { seg false 0 with seq := 2 ^ 32 } [], .dataSegmentRx 0 { seg false 0 with incarnation := 65536 } [],
      .dataSegmentRx 0 { seg false 0 with keySlot := 65536 } [], .dataSegmentRx 0 { seg false 0 with salt := 2 ^ 32 } [],
      .dataSegmentRx 0 { seg false 0 with counter := 2 ^ 64 } [], .ackBlockRx 0 [{ record 0 with stream := 2 ^ 20 }],
      .ackBlockRx 0 [{ record 0 with incarnation := 65536 }], .ackBlockRx 0 [{ record 0 with cumulative := 2 ^ 32 }],
      .ackBlockRx 0 [{ record 0 with window := 2 ^ 30 + 1 }], .ackBlockRx 0 [{ record 0 with delay := 2 ^ 32 }],
      .ackBlockRx 0 [{ record 0 with bitmap := [] }], .streamOpenRx 0 (seg false 0) (control .ok (2 ^ 48)),
      .streamResetRx 0 (seg false 0) ⟨.ok, 0, 0, 1000000000⟩, .retxTimer { key0 with stream := 2 ^ 20 }, .retxTimer { key0 with site := 1 },
      .lineFrameRx 0 ⟨[(0, [])]⟩, .lineFrameRx 0 ⟨[(0, List.replicate 2125 32)]⟩,
      .lineFrameRx 0 ⟨List.replicate 10 (0, List.replicate 2125 0)⟩, .ppsInEdge ⟨100, 20⟩, .mchSerialFrame 0 (zeros 1025),
      .keyGrantRequest 0 4096, .refcountDecrement 0 4 0, .refcountDecrement 4 3 0, .creditFrameRx 0 (2 ^ 32),
      .localFrameRx 0 (zeros 16385)] : List Instr).all (fun c => !c.wf) = true := by decide +kernel

theorem test_wf_management :
    ([.railFault .keep, .unitFault (.buffer 0 4 0), .unitFault (.buffer 4 3 0), .entropyRetest [], .drbgReseed [], .jtagSamplePreload [true] [],
      .imageData (2 ^ 32) [], .admitRestore 64, .admitDiscard 254, .hello 0 ⟨2 ^ 32, 0, []⟩, .proof 0 ⟨0, 2 ^ 64, []⟩, .record 0 ⟨0, 0, zeros 65536⟩,
      .proofTimeout (2 ^ 32), .read (2 ^ 32) 0 0, .read 0 (2 ^ 32) 0, .read 0 0 (2 ^ 32), .write (2 ^ 32) 0, .write 0 (2 ^ 32),
        .readSeqWrite (2 ^ 32),
      .temperatureWake 128, .temperatureWake (-129), .thermNAssert 0 128, .thermNRelease []] : List Instr).all (fun c => !c.wf) = true := by
  decide +kernel

theorem test_wf_stages :
    ([{ allPass with sramClusters := [16] }, { allPass with sramSlices := [4] }, { allPass with sramLocal := [64] },
      { allPass with sramLine := [16] }, { allPass with sramSpares := [0] }, { allPass with lambdaErrors := [(4320, 0)] },
      { allPass with localErrors := [(1152, 0)] }, { allPass with lasers := [] }, { allPass with serdesErrors := [(144, 0)] },
      { allPass with hbmFails := [102] }, { allPass with engineFails := [80] }, { allPass with coreFails := [288] },
      { allPass with adderFails := [4352] }, { allPass with cipherFails := [72] }, { allPass with clusterFails := [16] }] : List StageResult).all
      (fun r => !(Instr.startStageEnd r).wf) = true := by decide +kernel

/-! ### The spec's worked examples, and published vectors of the standards that it names -/

/-- The SSORT of the example under R212: rd = SW3, rs1 = SW1, rs2 = SW2, permutation requested, is 0x0420D18B. -/
theorem test_ssort_word : decodeRv 0x0420D18B = .custom0 2 5 3 1 2 := by decide +kernel

/-- The six keys of that example, ascending and descending. -/
theorem test_ssort :
    (∀ d : Bool,
      let r := streamSort false d true .bf16 [0x0000, 0x4000, 0x8000, 0x7FC0, 0xFF80, 0x4000]
      r.out = (if d then [0x7FC0, 0x4000, 0x4000, 0x0000, 0x8000, 0xFF80] else [0xFF80, 0x8000, 0x0000, 0x4000, 0x4000, 0x7FC0]).map some ∧
        r.perm = if d then [3, 1, 5, 0, 2, 4] else [4, 2, 0, 1, 5, 3]) := by decide +kernel

/-- The example under R229. -/
theorem test_crc32c : crcOf crc32c (ascii "123456789") = 0xE3069283 := by decide +kernel

/-- The two first rows of the example of epochs and IVs: an install, and the advance to position 1. -/
theorem test_epochs :
    let k : KeySlot := {
      slot64 with
      slot := 300, part := 12, activation := none,
      mag := ⟨[], [(zeros 32, zeros 4, 2 ^ 32), (zeros 32, zeros 4, 2 ^ 32), (zeros 32, zeros 4, 2 ^ 32)]⟩ }
    let s (t : Nat) (k : KeySlot) (a : Nat) : State :=
      { ready with
        quartz := { Quartz.reset with set := true, secs := t }, keys := { KeyStore.reset with slots := [k] },
        boot := { ready.boot with retention := ⟨a, 0, none, []⟩ } }
    (((s 1900000000 k 1899990050).freshKey 300).keySlot 300).map (fun y => (y.activation, State.epochOf y)) = some (some 0x713FB300, 0) ∧
    (((s 1900000214 { k with activation := some 0x713FB300, granted := 2 ^ 32 } 0x713FB300).limitReached 300).keySlot 300).map
      (fun y => (y.activation, State.epochOf y)) = some (some 0x713FB3D6, 1) := by decide +kernel

/-- FIPS 197, appendix C.3. -/
theorem test_aes : beNat (aesEncrypt (beBytes 32 0x000102030405060708090A0B0C0D0E0F101112131415161718191A1B1C1D1E1F)
    (beBytes 16 0x00112233445566778899AABBCCDDEEFF)) = 0x8EA2B7CA516745BFEAFC49904B496089 := by decide +kernel

/-- FIPS 180, the example of SHA-384 for "abc". -/
theorem test_sha384 : beNat (sha384 (ascii "abc")) =
    0xCB00753F45A35E8BB5A03D699AC65007272C32AB0EDED1631A8B605A43FF5BED8086072BA1E7CC2358BAECA134C825A7 := by decide +kernel

end Sys2Proof.Tests
end

section
/-! SUPPORT. What the traffic of the device leaves alone. -/

namespace Sys2Proof.Machine

/-- A fold whose every step keeps a view of the state keeps it. -/
theorem foldl_keeps {α β γ : Type} (g : β → γ) {f : β → α → β} (h : ∀ b a, g (f b a) = g b) (l : List α) (b : β) :
    g (l.foldl f b) = g b := by
  induction l generalizing b with
  | nil => rfl
  | cons a r ih => exact (ih (f b a)).trans (h b a)

/-- The state without what the traffic of descriptors, items, streams, peals and counters changes. -/
def State.still (s : State) : State :=
  { s with
    handed := [], freeCtr := 0, flash := ⟨[], none, [], [], 0⟩, ctrs := [], events := ⟨[], [], 0, 0, 0⟩,
    ports := Vector.replicate 64 .reset, sw := .reset, descs := [], nextDesc := 0, nodeOps := [], syncs := [], waits := [],
    parts := s.parts.map (fun q => { q with trapSeq := 0, traps := [] }), groups := [], slices := Vector.replicate 4 .reset,
    xfers := [], nextXfer := 0, expanders := [], ctxs := [], caches := [], remoteOps := [], mirrors := [], partnerAnswer := none }

namespace State

/-! ### Events, counters, work handed on -/

@[simp] theorem ite_still (c : Prop) [Decidable c] (a b : State) : (if c then a else b).still = if c then a.still else b.still :=
  apply_ite still c a b

@[simp] theorem hand_still (s : State) (i : Instr) : (s.hand i).still = s.still := rfl
@[simp] theorem resume_still (s : State) (id : Nat) (i : Instr) : (s.resume id i).still = s.still := rfl

@[simp] theorem raiseAll_still (s : State) (code : Nat) (p : Option Nat) (l : List Octets) : (s.raiseAll code p l).still = s.still := by
  obtain ⟨e, f, h, -⟩ := s.raiseAll_frame code p l
  rw [h]; rfl

@[simp] theorem raise_still (s : State) (code : Nat) (p : Option Nat) (x : Octets) : (s.raise code p x).still = s.still :=
  s.raiseAll_still code p [x]

@[simp] theorem bumpBy_still (s : State) (c : Ctr) (n : Nat) : (s.bumpBy c n).still = s.still := by
  rw [bumpBy_frame]; rfl

@[simp] theorem bump_still (s : State) (c : Ctr) : (s.bump c).still = s.still := s.bumpBy_still c 1
@[simp] theorem bumpPart_still (s : State) (p i : Nat) : (s.bumpPart p i).still = s.still := s.bump_still _

/-! ### The switch core -/

@[simp] theorem updPort_still (s : State) (n : Nat) (f : LocalPortState → LocalPortState) : (s.updPort n f).still = s.still := rfl
@[simp] theorem updItem_still (s : State) (id : Nat) (f : Item → Item) : (s.updItem id f).still = s.still := rfl
@[simp] theorem updOut_still (s : State) (o : Nat) (f : OutPort → OutPort) : (s.updOut o f).still = s.still := rfl
@[simp] theorem unqueue_still (s : State) (i : Item) (o size : Nat) : (s.unqueue i o size).still = s.still := rfl
@[simp] theorem offer_still (s : State) (p cls : Nat) (w : Writer) (org : Origin) (l : Load) (outs : List (Nat × Nat))
    (rx : Option (Nat × Nat)) : (s.offer p cls w org l outs rx).still = s.still := rfl

@[simp] theorem giveUnits_still (s : State) (n units : Nat) : (s.giveUnits n units).still = s.still := by
  simp [giveUnits, grantBack]

@[simp] theorem freeRx_still (s : State) (n units : Nat) : (s.freeRx n units).still = s.still := by
  simp only [freeRx]
  split <;> simp

@[simp] theorem release_still (s : State) (rx : Option (Nat × Nat)) : (s.release rx).still = s.still := by
  unfold release
  split <;> simp

@[simp] theorem freeItemRx_still (s : State) (i : Item) : (s.freeItemRx i).still = s.still := by
  unfold freeItemRx
  split <;> simp

@[simp] theorem retest_still (s : State) (p d : Nat) : (s.retest p d).still = s.still := by
  rw [retest_frame]; rfl

@[simp] theorem decRef_still (s : State) (b : Nat × Nat × Nat) : (s.decRef b).still = s.still := by
  obtain ⟨w, c, e, f, h, -⟩ := s.decRef_frame b
  rw [h]; rfl

@[simp] theorem freeLineBuf_still (s : State) (i : Item) : (s.freeLineBuf i).still = s.still := by
  unfold freeLineBuf
  split <;> simp

@[simp] theorem countHold_still (s : State) (i : Item) : (s.countHold i).still = s.still := by
  unfold countHold
  split <;> simp

@[simp] theorem nextWrite_still (s : State) (w : Writer) : (s.nextWrite w).still = s.still := by
  unfold nextWrite
  split
  · rfl
  · split
    · rfl
    · rw [foldl_keeps still (by simp)]; simp

/-- What is left of an item is forgotten in the switch core alone. -/
@[simp] theorem dropItems_still (s : State) (l : List Item) : ({ s with sw := { s.sw with items := l } } : State).still = s.still := rfl

@[simp] theorem dropEntry_still (s : State) (id o : Nat) : (s.dropEntry id o).still = s.still := by
  unfold dropEntry
  split
  · rfl
  · rename_i i _
    cases i.buf <;> simp

@[simp] theorem dropItem_still (s : State) (id : Nat) : (s.dropItem id).still = s.still := by
  unfold dropItem
  split
  · rfl
  · exact foldl_keeps still (fun _ _ => dropEntry_still _ _ _) _ _

/-! ### Descriptors -/

@[simp] theorem complete_still (s : State) (id : Nat) (st : Status) (body : Octets) : (s.complete id st body).still = s.still := by
  obtain ⟨w, h, ds, e, -⟩ := s.complete_frame id st body
  rw [e]; rfl

/-! ### Streams and node operations -/

@[simp] theorem updCtx_still (s : State) (k : CtxKey) (f : Ctx → Ctx) : (s.updCtx k f).still = s.still := rfl

@[simp] theorem putCtx_still (s : State) (c : Ctx) : (s.putCtx c).still = s.still := by
  unfold putCtx
  split <;> rfl

theorem offerStream_still {s t : State} {p kind stream site : Nat} {cls : Class} {w : Writer} {org : Origin} {body : Octets}
    {rx : Option (Nat × Nat)} (h : s.offerStream p kind stream site cls w org body rx = .ok t) : t.still = s.still := by
  unfold offerStream at h
  dsimp only at h
  split at h
  · simp at h
  · cases h; rfl
  · split at h
    · simp at h
    · split at h
      · simp at h
      · cases h; simp

@[simp] theorem mirrorAnswer_still (s : State) (p k : Nat) (st : Status) (body : Octets) : (s.mirrorAnswer p k st body).still = s.still := by
  unfold mirrorAnswer
  split
  · rfl
  · split
    · rfl
    · split
      · rfl
      · dsimp only
        split
        · split <;> (split <;> rfl)
        · split <;> rfl

@[simp] theorem xferAnswer_still (s : State) (id k : Nat) (st : Status) (body : Octets) : (s.xferAnswer id k st body).still = s.still := by
  unfold xferAnswer
  split
  · rfl
  · split
    · rfl
    · dsimp only
      split <;> rfl

@[simp] theorem remoteOps_still (s : State) (l : List RemoteOp) : ({ s with remoteOps := l } : State).still = s.still := rfl

@[simp] theorem remoteAnswer_still (s : State) (id : Nat) (st : Status) (body : Octets) : (s.remoteAnswer id st body).still = s.still := by
  unfold remoteAnswer
  split
  · rfl
  · rename_i r _
    cases r.buf <;> dsimp only
    all_goals
      split
      · simp
      · simp only [ite_still, hand_still, updCtx_still]
        split
        · simp
        · split
          · split
            · split
              · rename_i h
                simp [offerStream_still h]
              · simp
            · simp
          · simp

@[simp] theorem answerOp_still (s : State) (o : Origin) (st : Status) (body : Octets) : (s.answerOp o st body).still = s.still := by
  cases o <;> simp [answerOp]

@[simp] theorem freshTag_still (s : State) : s.freshTag.2.still = s.still := rfl

@[simp] theorem sendNode_still (s : State) (p : Nat) (cls : Class) (w : Writer) (org : Origin) (opcode node bodyLen : Nat)
    (body : Octets) (rx : Option (Nat × Nat)) : (s.sendNode p cls w org opcode node bodyLen body rx).still = s.still := by
  unfold sendNode
  split
  · simp
  · rfl

@[simp] theorem sendRemote_still (s : State) (p stream site : Nat) (cls : Class) (w : Writer) (org : Origin) (opcode bodyLen : Nat)
    (body : Octets) (rx : Option (Nat × Nat)) : (s.sendRemote p stream site cls w org opcode bodyLen body rx).still = s.still := by
  unfold sendRemote
  dsimp only
  split
  · simp
  · rename_i h
    simp [offerStream_still h]

@[simp] theorem sendGlobal_still (s : State) (p stream : Nat) (cls : Class) (w : Writer) (org : Origin) (opcode addr bodyLen : Nat)
    (body : Octets) (rx : Option (Nat × Nat)) : (s.sendGlobal p stream cls w org opcode addr bodyLen body rx).still = s.still := by
  simp [sendGlobal]

@[simp] theorem startRead_still (s : State) (p stream : Nat) (cls : Class) (w : Writer) (use : XferUse) (addr len : Nat) :
    (s.startRead p stream cls w use addr len).still = s.still :=
  foldl_keeps still (fun _ _ => sendGlobal_still _ _ _ _ _ _ _ _ _ _ _) _ _

@[simp] theorem startWrite_still (s : State) (p stream : Nat) (cls : Class) (w : Writer) (use : XferUse) (runs : List (Nat × Octets)) :
    (s.startWrite p stream cls w use runs).still = s.still :=
  foldl_keeps still (fun _ _ => sendGlobal_still _ _ _ _ _ _ _ _ _ _ _) _ _

@[simp] theorem startTensor_still (s : State) (die : Nat) : (s.startTensor die).still = s.still := by
  unfold startTensor
  split <;> simp

/-! ### Peals -/

@[simp] theorem updPeal_still (s : State) (p gid n : Nat) (f : Peal → Peal) : (s.updPeal p gid n f).still = s.still := rfl
@[simp] theorem updSlice_still (s : State) (k : Nat) (f : Slice → Slice) : (s.updSlice k f).still = s.still := rfl
@[simp] theorem dropPealXfers_still (s : State) (p gid n : Nat) : (s.dropPealXfers p gid n).still = s.still := rfl
@[simp] theorem retain_still (s : State) (p gid : Nat) (pl : Peal) (st : Status) (failed : Bool) :
    (s.retain p gid pl st failed).still = s.still := rfl
@[simp] theorem setSync_still (s : State) (id v : Nat) : (s.setSync id v).still = s.still := rfl

@[simp] theorem meetWaits_still (s : State) (id : Nat) : (s.meetWaits id).still = s.still :=
  foldl_keeps still (fun _ _ => complete_still _ _ _ _) _ _

@[simp] theorem syncAdd_still (s : State) (id amount : Nat) : (s.syncAdd id amount).2.still = s.still := by
  unfold syncAdd
  split <;> simp

theorem sendMsg_still {s t : State} {p : Nat} {g : GroupDef} {pl : Peal} {k kind status chunk contributors off : Nat} {payload : Octets}
    (h : s.sendMsg p g pl k kind status chunk contributors off payload = .ok t) : t.still = s.still := by
  unfold sendMsg at h
  split at h
  · exact offerStream_still h
  · simp at h

@[simp] theorem sendAborts_still (s : State) (p : Nat) (g : GroupDef) (pl : Peal) (st : Status) (src : Option Nat) :
    (s.sendAborts p g pl st src).still = s.still := by
  unfold sendAborts
  split
  · rfl
  · refine foldl_keeps still (fun b k => ?_) _ _
    dsimp only
    split
    · rename_i h
      split at h
      · exact sendMsg_still h
      · simp at h
    · rfl

@[simp] theorem issueWork_still (s : State) (p : Nat) (g : GroupDef) (pl : Peal) (b : PealStart) (w : PealWork) (chan : Nat) :
    (s.issueWork p g pl b w chan).still = s.still := by
  cases w <;> (unfold issueWork; dsimp only; split <;> simp)

@[simp] theorem pump_still (p k n : Nat) (s : State) : (s.pump p k n).still = s.still := by
  induction n generalizing s with
  | zero => rfl
  | succ n ih =>
    unfold pump
    dsimp only
    split <;> simp [ih]

@[simp] theorem pumpAll_still (s : State) (p : Nat) : (s.pumpAll p).still = s.still :=
  foldl_keeps still (fun _ _ => pump_still _ _ _ _) _ _

/-- A partition's trap ring is its traffic. -/
theorem updPart_still {f : PartState → PartState} (h : ∀ q, { f q with trapSeq := 0, traps := [] } = { q with trapSeq := 0, traps := [] })
    (s : State) (p : Nat) : (s.updPart p f).still = s.still := by
  have hp : (s.updPart p f).parts.map (fun q => { q with trapSeq := 0, traps := [] }) =
      s.parts.map (fun q => { q with trapSeq := 0, traps := [] }) := by
    rw [updPart_part_arr, Vector.map_set, h]
    exact (Vector.map_set ..).symm.trans (congrArg _ (Vector.set_getElem_self ..))
  unfold still
  rw [hp]
  rfl

@[simp] theorem writeTrap_still (s : State) (p kind cause ident number index unitKind unit secs ns : Nat) :
    (s.writeTrap p kind cause ident number index unitKind unit secs ns).still = s.still := by
  refine (bump_still _ _).trans (updPart_still ?_ s p)
  exact fun _ => rfl

@[simp] theorem pealTrap_still (s : State) (p : Nat) (g : GroupDef) (pl : Peal) : (s.pealTrap p g pl).still = s.still := by
  unfold pealTrap
  split <;> simp

@[simp] theorem countFlags_still (s : State) (strict : Bool) (f : FpFlags) (c : Nat → Ctr) : (s.countFlags strict f c).still = s.still := by
  unfold countFlags
  split
  · exact foldl_keeps still (fun _ _ => bump_still _ _) _ _
  · rfl

@[simp] theorem sliceQuiet_still (s : State) (k : Nat) : (s.sliceQuiet k).still = s.still := by
  unfold sliceQuiet
  split <;> simp

@[simp] theorem closeSlice_still (s : State) (k : Nat) : (s.closeSlice k).still = s.still := by
  simp [closeSlice]

@[simp] theorem slicesForget_still (s : State) (p : Nat) (f : Nat → Bool) : (s.slicesForget p f).still = s.still :=
  foldl_keeps still (fun _ _ => by simp) _ _

@[simp] theorem endPeal_still (s : State) (p gid n : Nat) (st : Status) (failed : Bool) : (s.endPeal p gid n st failed).still = s.still := by
  unfold endPeal
  split
  · rename_i g pl _ _
    dsimp only
    rw [sliceQuiet_still, foldl_keeps still]
    · simp
    · intro t m
      rw [complete_still]
      split <;> simp
  · rfl

@[simp] theorem dropPeal_still (s : State) (p gid n : Nat) (st : Status) (src : Option Nat) : (s.dropPeal p gid n st src).still = s.still := by
  unfold dropPeal
  split <;> simp

@[simp] theorem failList_still (s : State) (p : Nat) (l : List (Nat × Nat)) (st : Status) : (s.failList p l st).still = s.still :=
  (pumpAll_still _ _).trans (foldl_keeps still (fun _ _ => dropPeal_still _ _ _ _ _ _) _ _)

@[simp] theorem failPeals_still (s : State) (p : Nat) (st : Status) : (s.failPeals p st).still = s.still := failList_still _ _ _ _

@[simp] theorem failPealsOn_still (s : State) (k : CtxKey) (st : Status) : (s.failPealsOn k st).still = s.still := by
  unfold failPealsOn
  split <;> simp

end State
end Sys2Proof.Machine
end

section
/-! SUPPORT. What no end of work and no loss of keys changes: the footing of a state. -/

namespace Sys2Proof.Machine

/-- What no end of work, erase or scrub changes: the fuses, the mailbox, Quartz, the debug scopes, the entropy source, and the states of
the partitions. -/
structure Footing where
  owner : List OwnerSlot
  mail : Mailbox
  quartz : Quartz
  debugScope : Nat
  debugPending : Option Nat
  ent : EntState
  retestFails : Nat
  states : Vector PState 64

/-- The footing of a state. -/
def State.footing (s : State) : Footing :=
  ⟨s.owner, s.mail, s.quartz, s.debugScope, s.debugPending, s.keys.ent, s.keys.retestFails, s.parts.map PartState.state⟩

namespace State

theorem footing_still (s : State) : s.still.footing = s.footing := by
  simp [footing, still]

/-- Traffic keeps the footing. -/
theorem footing_of_still {s t : State} (h : t.still = s.still) : t.footing = s.footing := by
  rw [← footing_still t, h, footing_still]

@[simp] theorem ite_footing (c : Prop) [Decidable c] (a b : State) :
    (if c then a else b).footing = if c then a.footing else b.footing := apply_ite footing c a b

/-- A change of a partition that leaves its state keeps the footing. -/
theorem updPart_footing {f : PartState → PartState} (h : ∀ q, (f q).state = q.state) (s : State) (p : Nat) :
    (s.updPart p f).footing = s.footing := by
  have hp : (s.updPart p f).parts.map PartState.state = s.parts.map PartState.state := by
    rw [updPart_part_arr, Vector.map_set, h]
    exact (Vector.map_set ..).symm.trans (congrArg _ (Vector.set_getElem_self ..))
  unfold footing
  rw [hp]
  rfl

@[simp] theorem hand_footing (s : State) (i : Instr) : (s.hand i).footing = s.footing := rfl
@[simp] theorem raise_footing (s : State) (code : Nat) (p : Option Nat) (x : Octets) : (s.raise code p x).footing = s.footing :=
  footing_of_still (raise_still s code p x)
@[simp] theorem raiseAll_footing (s : State) (code : Nat) (p : Option Nat) (l : List Octets) : (s.raiseAll code p l).footing = s.footing :=
  footing_of_still (raiseAll_still s code p l)
@[simp] theorem bumpPart_footing (s : State) (p i : Nat) : (s.bumpPart p i).footing = s.footing := footing_of_still (bumpPart_still s p i)
@[simp] theorem decRef_footing (s : State) (b : Nat × Nat × Nat) : (s.decRef b).footing = s.footing := footing_of_still (decRef_still s b)
@[simp] theorem dropItem_footing (s : State) (id : Nat) : (s.dropItem id).footing = s.footing := footing_of_still (dropItem_still s id)
@[simp] theorem answerOp_footing (s : State) (o : Origin) (st : Status) (body : Octets) : (s.answerOp o st body).footing = s.footing :=
  footing_of_still (answerOp_still s o st body)
@[simp] theorem failPeals_footing (s : State) (p : Nat) (st : Status) : (s.failPeals p st).footing = s.footing :=
  footing_of_still (failPeals_still s p st)
@[simp] theorem failPealsOn_footing (s : State) (k : CtxKey) (st : Status) : (s.failPealsOn k st).footing = s.footing :=
  footing_of_still (failPealsOn_still s k st)

/-! ### Keys -/

@[simp] theorem updSlot_footing (s : State) (n : Nat) (f : KeySlot → KeySlot) : (s.updSlot n f).footing = s.footing := rfl
@[simp] theorem dropBlocks_footing (s : State) (n : Nat) : (s.dropBlocks n).footing = s.footing := rfl
@[simp] theorem updLine_footing (s : State) (m : Nat) (f : LinePortState → LinePortState) : (s.updLine m f).footing = s.footing := rfl
@[simp] theorem loseLineKeys_footing (s : State) (m : Nat) : (s.loseLineKeys m).footing = s.footing := rfl
@[simp] theorem activate_footing (s : State) : s.activate.2.footing = s.footing := rfl
@[simp] theorem eraseKeys_footing (s : State) (n : Nat) : (s.eraseKeys n).footing = s.footing := rfl
@[simp] theorem useBlock_footing (s : State) (b : KeyBlock) : (s.useBlock b).footing = s.footing := rfl
@[simp] theorem addBlock_footing (s : State) (b : KeyBlock) : (s.addBlock b).footing = s.footing := rfl

@[simp] theorem putSlot_footing (s : State) (k : KeySlot) : (s.putSlot k).footing = s.footing := by
  unfold putSlot
  split <;> rfl

@[simp] theorem freshKey_footing (s : State) (n : Nat) : (s.freshKey n).footing = s.footing := by
  simp [freshKey]

/-- A draw from the DRBG changes the DRBG and may cost free octets. -/
theorem drbg_frame {s t : State} {n : Nat} {x : Octets} (h : s.drbg n = some (x, t)) :
    t = { s with keys := { s.keys with drbg := t.keys.drbg }, freeCtr := t.freeCtr } := by
  unfold drbg at h
  split at h
  · simp only [Option.some.injEq, Prod.mk.injEq] at h
    obtain ⟨-, rfl⟩ := h
    split <;> rfl
  · cases h

theorem drbg_footing {s t : State} {n : Nat} {x : Octets} (h : s.drbg n = some (x, t)) : t.footing = s.footing := by
  rw [drbg_frame h]; rfl

@[simp] theorem lineActivate_footing (s : State) (m : Nat) : (s.lineActivate m).footing = s.footing := by
  unfold lineActivate
  split
  · rfl
  · split
    · rfl
    · split
      · rfl
      · split
        · rfl
        · rename_i h
          simp [drbg_footing h]

@[simp] theorem lineActivateAll_footing (s : State) (n : Nat) : (s.lineActivateAll n).footing = s.footing :=
  foldl_keeps footing (fun _ _ => lineActivate_footing _ _) _ _

@[simp] theorem advanced_footing (s : State) (n : Nat) : (s.advanced n).footing = s.footing := by
  unfold advanced
  split <;> simp

@[simp] theorem switchStaged_footing (s : State) (n : Nat) : (s.switchStaged n).footing = s.footing := by
  unfold switchStaged
  split
  · split <;> simp
  · rfl

@[simp] theorem limitReached_footing (s : State) (n : Nat) : (s.limitReached n).footing = s.footing := by
  unfold limitReached
  split <;> simp

@[simp] theorem grantBlock_footing (s : State) (die slot : Nat) : (s.grantBlock die slot).footing = s.footing := by
  unfold grantBlock
  split
  · rfl
  · split <;> simp

@[simp] theorem askBlock_footing (s : State) (die slot : Nat) : (s.askBlock die slot).footing = s.footing := by
  unfold askBlock
  split <;> simp

@[simp] theorem takeInvocation_footing (s : State) (die slot : Nat) : (s.takeInvocation die slot).1.footing = s.footing := by
  unfold takeInvocation
  dsimp only
  split <;> simp

@[simp] theorem queueReset_footing (s : State) (c : Ctx) (st : Status) : (s.queueReset c st).footing = s.footing := by
  unfold queueReset
  split
  · rfl
  · rename_i n _
    have h := takeInvocation_footing s (lineDie c.line) n
    split <;> rename_i e <;> rw [e] at h <;> exact h

@[simp] theorem unqueueCtx_footing (s : State) (k : CtxKey) : (s.unqueueCtx k).footing = s.footing := rfl
@[simp] theorem updCtx_footing (s : State) (k : CtxKey) (f : Ctx → Ctx) : (s.updCtx k f).footing = s.footing := rfl
@[simp] theorem dropCtx_footing (s : State) (k : CtxKey) : (s.dropCtx k).footing = s.footing := rfl

@[simp] theorem failStream_footing (s : State) (k : CtxKey) (st : Status) (reset : Bool) : (s.failStream k st reset).footing = s.footing := by
  unfold failStream
  split
  · rfl
  · dsimp only
    simp only [ite_footing, hand_footing, failPealsOn_footing, ite_self]
    rw [foldl_keeps footing (by simp), raise_footing, bumpPart_footing, foldl_keeps footing (by simp), foldl_keeps footing (by simp)]
    simp

@[simp] theorem failSlot_footing (s : State) (slot : Nat) (st : Status) : (s.failSlot slot st).footing = s.footing :=
  foldl_keeps footing (fun _ _ => failStream_footing _ _ _ _) _ _

@[simp] theorem eraseSlot_footing (s : State) (slot : Nat) : (s.eraseSlot slot).footing = s.footing := by
  unfold eraseSlot
  split
  · rfl
  · dsimp only
    split
    · rfl
    · split
      · exact foldl_keeps footing (fun _ _ => loseLineKeys_footing _ _) _ _
      · exact failSlot_footing _ _ _

@[simp] theorem eraseSlots_footing (s : State) (p : Nat) (l : List Nat) : (s.eraseSlots p l).footing = s.footing :=
  foldl_keeps footing (fun _ _ => by simp) _ _

end State
end Sys2Proof.Machine
end

section
/-! SUPPORT. Mirrors, memories, and the scrub of a partition keep the footing. -/

namespace Sys2Proof.Machine
namespace State

/-! ### Partners and mirrors -/

@[simp] theorem partnerPut_footing (s : State) (org : Origin) (addr : Nat) (x : Octets) : (s.partnerPut org addr x).footing = s.footing := by
  unfold partnerPut
  split
  · exact footing_of_still (sendNode_still _ _ _ _ _ _ _ _ _ _)
  · exact answerOp_footing _ _ _ _

@[simp] theorem setBulk_footing (s : State) (l : List BulkJob) :
    ({ s with keys := { s.keys with bulk := l } } : State).footing = s.footing := rfl

@[simp] theorem abortJobs_footing (s : State) (f : BulkJob → Bool) : (s.abortJobs f).footing = s.footing := by
  unfold abortJobs
  dsimp only
  rw [setBulk_footing, foldl_keeps footing]
  intro t b
  rw [foldl_keeps footing (fun _ _ => partnerPut_footing _ _ _ _)]
  rfl

@[simp] theorem abortBulk_footing (s : State) (p : Nat) : (s.abortBulk p).footing = s.footing := by
  simp [abortBulk]

@[simp] theorem updMirror_footing (s : State) (p : Nat) (f : Mirror → Mirror) : (s.updMirror p f).footing = s.footing := rfl

@[simp] theorem setMirror_footing (s : State) (p : Nat) (m : MirrorState) : (s.setMirror p m).footing = s.footing :=
  updPart_footing (f := fun q => { q with mirror := m }) (fun _ => rfl) s p

@[simp] theorem mirrorEvent_footing (s : State) (p cause : Nat) : (s.mirrorEvent p cause).footing = s.footing := raise_footing _ _ _ _

@[simp] theorem dropJob_footing (s : State) (p : Nat) : (s.dropJob p).footing = s.footing := by
  simp [dropJob]

@[simp] theorem setMirrors_footing (s : State) (l : List Mirror) : ({ s with mirrors := l } : State).footing = s.footing := rfl

@[simp] theorem dropMirror_footing (s : State) (p : Nat) : (s.dropMirror p).footing = s.footing := by
  simp [dropMirror]

@[simp] theorem zeroCommits_footing (s : State) (p : Nat) : (s.zeroCommits p).footing = s.footing := by
  simp [zeroCommits]

@[simp] theorem endMirror_footing (s : State) (p : Nat) : (s.endMirror p).footing = s.footing := by
  simp [endMirror]

@[simp] theorem beginMirror_footing (s : State) (p : Nat) : (s.beginMirror p).footing = s.footing := by
  simp [beginMirror]

/-! ### Memories -/

@[simp] theorem breakReserve_footing (s : State) (key len : Nat) : (s.breakReserve key len).footing = s.footing := by
  unfold breakReserve
  dsimp only
  split <;> rfl

@[simp] theorem placeLocal_footing (s : State) (sp : Space) (cluster addr : Nat) (x : Octets) :
    (s.placeLocal sp cluster addr x).footing = s.footing := by
  unfold placeLocal
  split <;> exact breakReserve_footing _ _ _

@[simp] theorem markRaced_footing (s : State) (hit : MatWatch → Bool) : (s.markRaced hit).footing = s.footing := by
  unfold markRaced
  dsimp only
  split
  · rfl
  · rw [foldl_keeps footing]
    · rfl
    · exact fun _ _ => placeLocal_footing _ _ _ _ _

@[simp] theorem writeLocal_footing (s : State) (sp : Space) (cluster addr : Nat) (x : Octets) :
    (s.writeLocal sp cluster addr x).footing = s.footing := by
  simp [writeLocal, noteWrite]

@[simp] theorem restoreFails_footing (s : State) (p : Nat) : (s.restoreFails p).footing = s.footing := by
  unfold restoreFails
  dsimp only
  rw [foldl_keeps footing]
  · simp
  · exact fun _ _ => writeLocal_footing _ _ _ _ _

@[simp] theorem voidMirror_footing (s : State) (p : Nat) : (s.voidMirror p).footing = s.footing := by
  unfold voidMirror
  dsimp only
  split <;> simp

@[simp] theorem mirrorsAfter_footing (s : State) (r : Nat) (old : List Window) (below : List Nat) :
    (s.mirrorsAfter r old below).footing = s.footing := by
  unfold mirrorsAfter
  dsimp only
  rw [foldl_keeps footing (by simp)]
  simp

/-! ### What a partition's scrub ends -/

theorem setHanded_footing (s : State) (l : List (Option Nat × Instr)) : ({ s with handed := l } : State).footing = s.footing := rfl

@[simp] theorem giveUnits_footing (s : State) (n units : Nat) : (s.giveUnits n units).footing = s.footing :=
  footing_of_still (giveUnits_still s n units)
@[simp] theorem freeRx_footing (s : State) (n units : Nat) : (s.freeRx n units).footing = s.footing := footing_of_still (freeRx_still s n units)
@[simp] theorem startTensor_footing (s : State) (die : Nat) : (s.startTensor die).footing = s.footing :=
  footing_of_still (startTensor_still s die)

@[simp] theorem dropFrames_footing (s : State) (p : Nat) : (s.dropFrames p).footing = s.footing := by
  unfold dropFrames
  dsimp only
  rw [foldl_keeps footing]
  · refine (setHanded_footing _ _).trans (foldl_keeps footing (fun t n => ?_) _ _)
    rw [foldl_keeps footing]
    · rfl
    · exact fun _ _ => giveUnits_footing _ _ _
  · intro t h
    split
    · simp
    · split
      · simp
      · rfl

@[simp] theorem dropInvocations_footing (s : State) (p : Nat) (f : Nat → Bool) : (s.dropInvocations p f).footing = s.footing := by
  unfold dropInvocations
  dsimp only
  rw [foldl_keeps footing]
  · rfl
  · intro t c
    rfl

@[simp] theorem removeStream_footing (s : State) (k : CtxKey) : (s.removeStream k).footing = s.footing := by
  unfold removeStream
  split
  · rfl
  · dsimp only
    rw [dropCtx_footing, failPealsOn_footing, foldl_keeps footing (by simp), foldl_keeps footing (by simp), foldl_keeps footing (by simp)]
    simp

@[simp] theorem removeStreams_footing (s : State) (p : Nat) (f : Nat → Bool) : (s.removeStreams p f).footing = s.footing :=
  foldl_keeps footing (fun _ _ => removeStream_footing _ _) _ _

@[simp] theorem freeBuffers_footing (s : State) (p : Nat) : (s.freeBuffers p).footing = s.footing :=
  foldl_keeps footing (by intros; rfl) _ _

@[simp] theorem needCluster_footing (s : State) (c : Nat) : (s.needCluster c).footing = s.footing := by
  unfold needCluster
  dsimp only
  split
  · rfl
  · split <;> rfl

@[simp] theorem setProgs_footing (s : State) (p : Nat) (rs : List ProgRec) : (s.setProgs p rs).footing = s.footing := by
  unfold setProgs
  dsimp only
  rw [foldl_keeps footing, updPart_footing]
  · rfl
  · exact fun _ => rfl
  · exact fun _ _ => rfl

@[simp] theorem slicesForget_footing (s : State) (p : Nat) (f : Nat → Bool) : (s.slicesForget p f).footing = s.footing :=
  footing_of_still (slicesForget_still s p f)

theorem setRemote_footing (s : State) (a : List NodeOp) (b : List Xfer) (c : List RemoteOp) :
    ({ s with nodeOps := a, xfers := b, remoteOps := c } : State).footing = s.footing := rfl

theorem setDescs_footing (s : State) (a : List Desc) (b : List SyncWait) : ({ s with descs := a, waits := b } : State).footing = s.footing := rfl

theorem setSlices_footing (s : State) (l : Vector Slice 4) : ({ s with slices := l } : State).footing = s.footing := rfl

@[simp] theorem abortPart_footing (s : State) (p : Nat) : (s.abortPart p).footing = s.footing := by
  unfold abortPart
  refine (freeBuffers_footing _ _).trans ?_
  refine (foldl_keeps footing (fun _ _ => dropItem_footing _ _) _ _).trans ?_
  refine (eraseSlots_footing _ _ _).trans ?_
  refine (removeStreams_footing _ _ _).trans ?_
  refine (foldl_keeps footing (fun t d => ?_) _ _).trans ?_
  · dsimp only
    split
    · exact startTensor_footing _ _
    · rfl
  · refine (setRemote_footing _ _ _ _).trans ((dropInvocations_footing _ _ _).trans ((failPeals_footing _ _ _).trans ?_))
    exact (setDescs_footing _ _ _).trans ((setSlices_footing _ _).trans (dropFrames_footing _ _))

@[simp] theorem zeroCluster_footing (s : State) (c : Nat) : (s.zeroCluster c).footing = s.footing :=
  foldl_keeps footing (by intros; rfl) _ _

@[simp] theorem zeroMemory_footing (s : State) (clusters : List Nat) (ws keep : List Window) :
    (s.zeroMemory clusters ws keep).footing = s.footing := by
  unfold zeroMemory
  dsimp only
  rw [foldl_keeps footing, foldl_keeps footing (fun _ _ => zeroCluster_footing _ _)]
  intro t w
  split
  · exact foldl_keeps footing (by intros; rfl) _ _
  · split
    · exact foldl_keeps footing (by intros; rfl) _ _
    · rfl

end State
end Sys2Proof.Machine
end

section
/-! SUPPORT. The states of the partitions in the footing: a scrub of everything, and Knell. -/

namespace Sys2Proof.Machine

/-- A footing with the state of one partition set. -/
def Footing.put (k : Footing) (p : Nat) (st : PState) : Footing := { k with states := k.states.set (fin64 p) st }

/-- Setting the states of several partitions to one value changes those states and nothing else of the footing. -/
theorem Footing.puts (st : PState) (l : List Nat) (k : Footing) :
    l.foldl (fun k p => k.put p st) k = { k with states := (l.foldl (fun k p => k.put p st) k).states } ∧
      ∀ i : Fin 64, (l.foldl (fun k p => k.put p st) k).states[i] = if i ∈ l.map fin64 then st else k.states[i] := by
  induction l generalizing k with
  | nil => exact ⟨rfl, fun i => by simp⟩
  | cons p r ih =>
    obtain ⟨hk, hs⟩ := ih (k.put p st)
    refine ⟨?_, fun i => ?_⟩
    · rw [List.foldl_cons, hk]; rfl
    · rw [List.foldl_cons, hs i]
      simp only [List.map_cons, List.mem_cons]
      by_cases hr : i ∈ r.map fin64
      · simp [hr]
      · by_cases hp : i = fin64 p
        · subst hp; simp [Footing.put]
        · have : (fin64 p : Nat) ≠ i := fun e => hp (Fin.ext e.symm)
          simp [hr, hp, Footing.put, this]

namespace State

/-- The state of a partition stands in the footing. -/
theorem footing_states (s : State) (p : Nat) : s.footing.states[fin64 p] = (s.part p).state := by
  simp [footing, part]

theorem updPart_footing_put {f : PartState → PartState} {st : PState} (h : ∀ q, (f q).state = st) (s : State) (p : Nat) :
    (s.updPart p f).footing = s.footing.put p st := by
  have hp : (s.updPart p f).parts.map PartState.state = (s.parts.map PartState.state).set (fin64 p) st := by
    rw [updPart_part_arr, Vector.map_set, h]
  unfold footing
  rw [hp]
  rfl

@[simp] theorem setPState_footing (s : State) (p : Nat) (st : PState) (cause : Nat) :
    (s.setPState p st cause).footing = s.footing.put p st :=
  (raise_footing _ _ _ _).trans (updPart_footing_put (f := fun q => { q with state := st }) (fun _ => rfl) s p)

theorem setCtrs_footing (s : State) (l : List (Ctr × Nat)) : ({ s with ctrs := l } : State).footing = s.footing := rfl

theorem setGroups_footing (s : State) (a : List Group) (b : List Ctx) (c : List (Nat × Nat × CtxKey)) :
    ({ s with groups := a, ctxs := b, caches := c } : State).footing = s.footing := rfl

theorem setSyncs_footing (s : State) (l : List (Nat × Nat)) : ({ s with syncs := l } : State).footing = s.footing := rfl

/-- A change of the key store that leaves the entropy source as it is. -/
theorem setKeys_footing {s : State} {k : KeyStore} (h : k.ent = s.keys.ent) (h' : k.retestFails = s.keys.retestFails) :
    ({ s with keys := k } : State).footing = s.footing := by
  simp [footing, h, h']

theorem setConf_footing (s : State) (c : Conf) : ({ s with conf := c } : State).footing = s.footing := rfl

/-- A partition that enters SCRUBBING changes no other footing than its own state. -/
@[simp] theorem enterScrub_footing (s : State) (p cause : Nat) : (s.enterScrub p cause).footing = s.footing.put p .scrubbing := by
  unfold enterScrub
  refine (mirrorsAfter_footing _ _ _ _).trans ?_
  refine (updPart_footing (by exact fun _ => rfl) _ _).trans ?_
  refine (slicesForget_footing _ _ _).trans ((setProgs_footing _ _ _).trans ?_)
  refine (setConf_footing _ _).trans ?_
  refine (foldl_keeps footing (fun _ _ => needCluster_footing _ _) _ _).trans ?_
  refine (abortPart_footing _ _).trans ((endMirror_footing _ _).trans ?_)
  refine (updPart_footing (by exact fun _ => rfl) _ _).trans ?_
  exact setPState_footing _ _ _ _

/-- The end of a scrub frees its partition and changes nothing else of the footing. -/
@[simp] theorem finishScrub_footing (s : State) (p : Nat) : (s.finishScrub p).footing = s.footing.put p .free := by
  unfold finishScrub
  refine (setPState_footing _ _ _ _).trans (congrArg (fun k => Footing.put k p .free) ?_)
  refine (updPart_footing (by exact fun _ => rfl) _ _).trans ?_
  refine (setCtrs_footing _ _).trans ((raiseAll_footing _ _ _ _).trans ?_)
  refine (setGroups_footing _ _ _ _).trans (foldl_keeps footing (fun t x => ?_) _ _)
  exact (setSyncs_footing _ _).trans (zeroMemory_footing _ _ _ _)

/-- Partitions that are not FREE. -/
def notFree (s : State) : List Nat := (List.range 64).filter (fun p => (s.part p).state != .free)

/-- A scrub of everything leaves every partition FREE, and nothing else of the footing changes. -/
theorem scrubAll_footing (s : State) :
    s.scrubAll.footing = { s.footing with states := s.scrubAll.footing.states } ∧ ∀ i : Fin 64, s.scrubAll.footing.states[i] = .free := by
  let entering := s.notFree.filter (fun p => (s.part p).state != .scrubbing)
  have henter : (entering.foldl (fun s p => s.enterScrub p 5) s).footing = entering.foldl (fun k p => k.put p .scrubbing) s.footing :=
    (List.foldl_hom footing (fun t p => (enterScrub_footing t p 5).symm)).symm
  have hfinish : s.scrubAll.footing = s.notFree.foldl (fun k p => k.put p .free) (entering.foldl (fun s p => s.enterScrub p 5) s).footing :=
    (List.foldl_hom footing (fun t p => (finishScrub_footing t p).symm)).symm
  obtain ⟨hk, hs⟩ := Footing.puts .scrubbing entering s.footing
  obtain ⟨hk', hs'⟩ := Footing.puts .free s.notFree (entering.foldl (fun k p => k.put p .scrubbing) s.footing)
  rw [hfinish, henter]
  refine ⟨?_, fun i => ?_⟩
  · rw [hk', hk]
  · rw [hs' i, hs i]
    have hi : fin64 i.val = i := Fin.ext (Nat.mod_eq_of_lt i.isLt)
    by_cases hm : i ∈ s.notFree.map fin64
    · simp [hm]
    · have hn : i ∉ entering.map fin64 := fun h => hm (List.map_subset _ (List.filter_subset_self _) h)
      have hfree : (s.part i).state = .free := by
        by_contra h
        exact hm (List.mem_map.2 ⟨i, by simp [notFree, h], hi⟩)
      rw [if_neg hm, if_neg hn, ← hfree, ← footing_states]
      simp [hi]

/-! ### Knell -/

@[simp] theorem knellKeys_footing (s : State) (trigger : Nat) : (s.knellKeys trigger).footing = s.footing := by
  unfold knellKeys
  refine (raise_footing _ _ _ _).trans ((setKeys_footing rfl rfl).trans ?_)
  refine (foldl_keeps footing (by intros; rfl) _ _).trans ?_
  exact foldl_keeps footing (fun _ _ => eraseKeys_footing _ _) _ _

@[simp] theorem knell_footing (s : State) (trigger : Nat) : (s.knell trigger).footing = s.footing :=
  (knellKeys_footing _ _).trans ((foldl_keeps footing (fun _ _ => eraseSlot_footing _ _) _ _).trans (abortJobs_footing _ _))

/-- The end of every operation in flight is traffic. -/
@[simp] theorem endInFlight_still (s : State) : s.endInFlight.still = s.still :=
  (foldl_keeps still (fun _ _ => complete_still _ _ _ _) _ _).trans (foldl_keeps still (fun _ _ => failPeals_still _ _ _) _ _)

end State
end Sys2Proof.Machine
end

section
/-! SUPPORT. Answers to records, and what a warm reset leaves. -/

namespace Sys2Proof.Machine
namespace State

/-! ### Answers to records -/

/-- An event that is not critical changes the event log alone. -/
theorem raise_plain {code : Nat} (h : criticalCode code = false) (s : State) (p : Option Nat) (x : Octets) :
    s.raise code p x = { s with events := (s.raise code p x).events } := by
  have hf := raise_flash (s := s) h p x
  obtain ⟨e, f, hr, -⟩ := s.raise_frame code p x
  rw [hr] at hf ⊢
  rw [show f = s.flash from hf]

/-- A reply changes its session's books and what leaves. -/
theorem sendReply_frame (s : State) (id port : Nat) (x : Octets) :
    s.sendReply id port x = { s with tocsin := (s.sendReply id port x).tocsin, out := (s.sendReply id port x).out } := by
  unfold sendReply
  split
  · unfold sendTocsin
    split <;> rfl
  · split
    · rfl
    · dsimp only
      unfold sendTocsin
      split <;> rfl

/-- The mailbox is free once it has been freed; nothing but it and the work handed on changes. -/
theorem freeMail_frame (s : State) : s.freeMail = { s with mail := { s.mail with current := none }, handed := s.freeMail.handed } := by
  unfold freeMail
  dsimp only
  split <;> rfl

/-- An answer takes its place in the mailbox, frees it, and touches nothing but what every answer may. -/
theorem answer_frame (s : State) (st : Status) (x : Octets) : mailOnly s (s.answer st x) ∧ mailed s (s.answer st x) st x := by
  let put : State := { s with mail := { s.mail with status := statusCode st, reply := x } }
  have hput : put.freeMail = { s with mail := { put.mail with current := none }, handed := put.freeMail.handed } := put.freeMail_frame
  rcases hc : s.mail.current with _ | ⟨_ | ⟨id, port⟩, y⟩
  · have ht : s.answer st x = put := by simp [answer, hc, put]
    rw [ht]
    exact ⟨rfl, by simp [mailed, put, hc]⟩
  · have ht : s.answer st x = put.freeMail := by simp [answer, hc, put]
    rw [ht, hput]
    exact ⟨rfl, rfl⟩
  · have ht : s.answer st x = put.freeMail.sendReply id port x := by simp [answer, hc, put]
    rw [ht, sendReply_frame, hput]
    exact ⟨rfl, rfl⟩

theorem reply_frame (s : State) (type : Nat) (st : Status) (body : Octets) :
    mailOnly s (s.reply type st body) ∧ mailed s (s.reply type st body) st (replyBytes type st body) := s.answer_frame st _

/-- A reply after an event that is not critical: the event, the reply, and no other effect. -/
theorem raise_reply_frame {code : Nat} (h : criticalCode code = false) (s : State) (p : Option Nat) (x : Octets) (type : Nat) (st : Status)
    (body : Octets) :
    mailed s ((s.raise code p x).reply type st body) st (replyBytes type st body) ∧
      ((s.raise code p x).reply type st body).events = (s.raise code p x).events ∧
      mailOnly { s with events := ((s.raise code p x).reply type st body).events } ((s.raise code p x).reply type st body) := by
  have hr := raise_plain h s p x
  obtain ⟨honly, hmail⟩ := (s.raise code p x).reply_frame type st body
  generalize (s.raise code p x).reply type st body = t at honly hmail ⊢
  generalize s.raise code p x = r at hr honly hmail ⊢
  have he : t.events = r.events := by rw [honly]
  refine ⟨hmail.trans ?_, he, ?_⟩
  · rw [hr]
  · rw [he]
    exact honly.trans (by rw [hr])

/-- A rejected record has its event and its reply and no other effect. -/
theorem reject_rejected (s : State) (type : Nat) (st : Status) : rejected s (s.reject type st) type st :=
  raise_reply_frame rfl s none _ type st []

/-! ### The reset that follows an owner record -/

theorem entKept_eq (k : KeyStore) : entKept k = keysAfterReset k := by
  simp [entKept, keysAfterReset]

@[simp] theorem updateLost_footing (s : State) : s.updateLost.footing = s.footing := by
  unfold updateLost
  split
  · split
    · rfl
    · split
      · unfold secondLost
        split
        · exact raise_footing _ _ _ _
        · rfl
      · exact raise_footing _ _ _ _
  · rfl

/-- What a footing tells of the state after a warm reset. -/
theorem warmReset_facts (s : State) (trigger : Nat) :
    (s.warmReset trigger).owner = s.owner ∧ (s.warmReset trigger).boot.kind = .warm ∧ (s.warmReset trigger).boot.trigger = trigger ∧
      (s.warmReset trigger).keys = keysAfterReset s.keys ∧ (s.warmReset trigger).quartz.secs = s.quartz.secs ∧
      (s.warmReset trigger).basalt = [] := by
  have hf := s.updateLost_footing
  have howner : s.updateLost.owner = s.owner := congrArg Footing.owner hf
  have hent : s.updateLost.keys.ent = s.keys.ent := congrArg Footing.ent hf
  have hfails : s.updateLost.keys.retestFails = s.keys.retestFails := congrArg Footing.retestFails hf
  have hquartz : s.updateLost.quartz = s.quartz := congrArg Footing.quartz hf
  refine ⟨howner, rfl, rfl, ?_, ?_, rfl⟩
  · rw [← entKept_eq]
    show entKept s.updateLost.keys = _
    rw [entKept, entKept, hent, hfails]
  · rw [← hquartz]
    unfold warmReset afterReset
    dsimp only
    split <;> rfl

end State
end Sys2Proof.Machine
end

section
/-! SUPPORT. Knell leaves no key, and the operations in flight end. -/

namespace Sys2Proof.Machine
namespace State

/-! ### Knell -/

/-- A slot after an erase was there before it with another number, or is EMPTY. -/
theorem mem_eraseKeys_slots {s : State} {n : Nat} {k : KeySlot} (h : k ∈ (s.eraseKeys n).keys.slots) :
    k.state = .empty ∨ k ∈ s.keys.slots ∧ k.slot ≠ n := by
  simp only [eraseKeys, updSlot, dropBlocks, mapWhen, List.mem_map] at h
  obtain ⟨y, hy, rfl⟩ := h
  split
  · exact .inl rfl
  · rename_i hn
    exact .inr ⟨hy, by simpa using hn⟩

theorem mem_eraseAll_slots {l : List Nat} {s : State} {k : KeySlot} (h : k ∈ (l.foldl (fun s n => s.eraseKeys n) s).keys.slots) :
    k.state = .empty ∨ k ∈ s.keys.slots ∧ k.slot ∉ l := by
  induction l generalizing s with
  | nil => exact .inr ⟨h, by simp⟩
  | cons n r ih =>
    obtain he | ⟨hk, hr⟩ := ih h
    · exact .inl he
    · obtain he | ⟨hk', hn⟩ := mem_eraseKeys_slots hk
      · exact .inl he
      · exact .inr ⟨hk', by simp [hn, hr]⟩

/-- The slots that Knell erases. -/
def heldSlots (s : State) : List Nat := (s.keys.slots.filter (fun k => k.state != .empty)).map KeySlot.slot

/-- The state once Knell has emptied every slot and the line ports have lost their keys. -/
def unkeyed (s : State) : State :=
  (List.range 16).foldl (fun (s : State) (m : Nat) => (s.dropLineKey m).updLine m (fun l => { l with rx := { l.rx with keys := [] } }))
    (s.heldSlots.foldl (fun s n => s.eraseKeys n) s)

/-- The key store once Knell has run. -/
def knelledKeys (k : KeyStore) : KeyStore :=
  { k with
    derived := [], knells := k.knells + 1, drbg := none, blocks := [], bulk := k.bulk.map (fun b => { b with aborted := true, key := [] }) }

theorem knellKeys_eq (s : State) (trigger : Nat) :
    s.knellKeys trigger = ({ s.unkeyed with keys := knelledKeys s.unkeyed.keys } : State).raise 0x0203 none (oct 0 ++ oct trigger) := rfl

theorem unkeyed_keys (s : State) : s.unkeyed.keys = (s.heldSlots.foldl (fun s n => s.eraseKeys n) s).keys :=
  foldl_keeps keys (by intros; rfl) _ _

/-- Traffic keeps the key store. -/
theorem keys_of_still {s t : State} (h : t.still = s.still) : t.keys = s.keys :=
  show t.still.keys = s.still.keys by rw [h]

theorem knellKeys_keys (s : State) (trigger : Nat) : (s.knellKeys trigger).keys = knelledKeys s.unkeyed.keys := by
  rw [knellKeys_eq, keys_of_still (raise_still ..)]

/-- After Knell every slot is EMPTY. -/
theorem knellKeys_slots {s : State} {trigger : Nat} {k : KeySlot} (h : k ∈ (s.knellKeys trigger).keys.slots) : k.state = .empty := by
  rw [knellKeys_keys] at h
  obtain he | ⟨hk, hn⟩ := mem_eraseAll_slots (s.unkeyed_keys ▸ h)
  · exact he
  · by_contra hk'
    exact hn (List.mem_map_of_mem (List.mem_filter.2 ⟨hk, by simpa using hk'⟩))

/-! ### Knell with no stream and no bulk message -/

/-- What of the state the end of an operation in flight rests on: accepted descriptors, the switch core, groups, streams, and bulk
messages. -/
def flight (s : State) : List Desc × Switch × List Group × List Ctx × List BulkJob := (s.descs, s.sw, s.groups, s.ctxs, s.keys.bulk)

theorem abortJobs_flight {s : State} (h : s.keys.bulk = []) (f : BulkJob → Bool) : (s.abortJobs f).flight = s.flight := by
  simp [abortJobs, flight, h, mapWhen]

theorem failSlot_noStream {s : State} (h : s.ctxs = []) (n : Nat) (st : Status) : s.failSlot n st = s := by
  simp [failSlot, h]

theorem eraseSlot_flight {s : State} (h : s.ctxs = []) (n : Nat) : (s.eraseSlot n).flight = s.flight := by
  unfold eraseSlot
  split
  · rfl
  · dsimp only
    split
    · rfl
    · split
      · exact foldl_keeps flight (by intros; rfl) _ _
      · rw [failSlot_noStream]
        · rfl
        · exact h

theorem raise_flight (s : State) (code : Nat) (p : Option Nat) (x : Octets) : (s.raise code p x).flight = s.flight := by
  obtain ⟨e, f, h, -⟩ := s.raise_frame code p x
  rw [h]; rfl

theorem setKeys_flight {s : State} {k : KeyStore} (h : k.bulk = s.keys.bulk) : ({ s with keys := k } : State).flight = s.flight := by
  rw [flight, h]; rfl

theorem unkeyed_flight (s : State) : s.unkeyed.flight = s.flight :=
  (foldl_keeps flight (by intros; rfl) _ _).trans (foldl_keeps flight (by intros; rfl) _ _)

theorem knellKeys_flight {s : State} (h : s.keys.bulk = []) (trigger : Nat) : (s.knellKeys trigger).flight = s.flight := by
  have hbulk : s.unkeyed.keys.bulk = [] := (congrArg (fun x => x.2.2.2.2) s.unkeyed_flight).trans h
  rw [knellKeys_eq, raise_flight, setKeys_flight, unkeyed_flight]
  simp [knelledKeys, hbulk]

theorem eraseAll_flight (l : List Nat) {s : State} (h : s.ctxs = []) : (l.foldl eraseSlot s).flight = s.flight := by
  induction l generalizing s with
  | nil => rfl
  | cons n r ih =>
    have hn := eraseSlot_flight h n
    exact (ih ((congrArg (fun x => x.2.2.2.1) hn).trans h)).trans hn

/-- Knell with no stream and no bulk message leaves the operations in flight to their end. -/
theorem knell_flight {s : State} (hc : s.ctxs = []) (hb : s.keys.bulk = []) (trigger : Nat) : (s.knell trigger).flight = s.flight := by
  have hjobs := abortJobs_flight hb (fun _ => true)
  have herased := (eraseAll_flight (s.keys.slots.map KeySlot.slot) ((congrArg (fun x => x.2.2.2.1) hjobs).trans hc)).trans hjobs
  exact (knellKeys_flight ((congrArg (fun x => x.2.2.2.2) herased).trans hb) trigger).trans herased

/-! ### Operations in flight end -/

/-- A descriptor that completes leaves the accepted ones, with every other of its number. -/
theorem complete_ids (s : State) (id : Nat) (st : Status) (body : Octets) :
    (s.complete id st body).descs.map Desc.id = (s.descs.map Desc.id).filter (· != id) := by
  obtain ⟨w, h, ds, e, hds⟩ := s.complete_frame id st body
  rw [e]
  refine hds.trans ?_
  split
  · rw [List.filter_map]; rfl
  · rename_i hn
    have hn : ∀ d ∈ s.descs, d.id ≠ id := by simpa [desc] using hn
    rw [List.filter_eq_self.2]
    simpa using hn

theorem completes_ids (st : Status) (body : Octets) (l : List Nat) (s : State) :
    (l.foldl (fun s id => s.complete id st body) s).descs.map Desc.id = (s.descs.map Desc.id).filter (fun n => !l.contains n) := by
  induction l generalizing s with
  | nil => simp
  | cons id r ih =>
    rw [List.foldl_cons, ih, complete_ids, List.filter_filter]
    congr 1
    funext n
    by_cases hn : n = id <;> simp [hn, bne]

/-- Every operation in flight ends: no descriptor stays accepted. -/
theorem endInFlight_descs (s : State) : s.endInFlight.descs = [] := by
  let failed := (List.range 64).foldl (fun s p => s.failPeals p .keyErased) s
  have hids := completes_ids .keyErased [] (failed.descs.map Desc.id) failed
  have hnone : (failed.descs.map Desc.id).filter (fun n => !(failed.descs.map Desc.id).contains n) = [] := by
    simp [List.filter_eq_nil_iff]
  exact List.map_eq_nil_iff.1 (hids.trans hnone)

theorem pump_noGroup {s : State} (h : s.groups = []) (p k n : Nat) : s.pump p k n = s := by
  cases n <;> simp [pump, h]

theorem failPeals_noGroup {s : State} (h : s.groups = []) (p : Nat) (st : Status) : s.failPeals p st = s := by
  simp [failPeals, failList, pumpAll, List.range_succ, h, pump_noGroup]

/-- A change of descriptors that keeps their numbers, seen from one number. -/
theorem updDesc_desc (s : State) (id n : Nat) {f : Desc → Desc} (hf : ∀ d, (f d).id = d.id) :
    (s.updDesc id f).desc n = (s.desc n).map (fun d => if d.id == id then f d else d) := by
  have hp : (fun d => d.id == n) ∘ (fun d => if d.id == id then f d else d) = fun d => d.id == n := by
    funext d
    by_cases h : d.id = id <;> simp [h, hf]
  unfold updDesc desc mapWhen
  rw [List.find?_map, hp]

/-- A descriptor leaves the accepted ones, and its waits with it. -/
def leave (s : State) (id : Nat) : State :=
  { s with descs := s.descs.filter (fun x => x.id != id), waits := s.waits.filter (fun w => w.desc != id) }

theorem leave_desc_ne (s : State) {id n : Nat} (h : n ≠ id) : (s.leave id).desc n = s.desc n := by
  simp only [leave, desc, List.find?_filter]
  congr 1
  funext d
  by_cases hd : d.id = n <;> simp [hd, h]

/-- What goes on behind a memory operation is held no more, and no descriptor changes otherwise. -/
theorem wakeBehind_desc {s : State} {n : Nat} {d : Desc} (hd : s.desc n = some d) (key : Option (Nat × Nat × Nat)) :
    ∃ hold, (s.wakeBehind key).desc n = some { d with hold := hold } := by
  unfold wakeBehind
  split
  · rename_i e _
    have hwake := s.updDesc_desc e.id n (f := fun x => { x with hold := .running }) (fun _ => rfl)
    rw [hd] at hwake
    by_cases hid : d.id = e.id
    · exact ⟨.running, hwake.trans (by simp [hid])⟩
    · exact ⟨d.hold, hwake.trans (by simp [hid])⟩
  · exact ⟨d.hold, hd⟩

/-- The descriptors that stay when one completes. -/
theorem complete_descs {s : State} {id : Nat} {c : Desc} (hc : s.desc id = some c) (st : Status) (body : Octets) :
    (s.complete id st body).descs = ((s.leave id).wakeBehind (s.memOrder c)).descs := by
  simp only [complete, hc]
  rw [checkStep_frame, releaseFences_frame]
  split <;> rfl

/-- What the switch core holds when a descriptor has completed: its completion too, where one is due. -/
theorem complete_sw {s : State} {id : Nat} {c : Desc} (hc : s.desc id = some c) (st : Status) (body : Octets) :
    (s.complete id st body).sw = if st != .ok || c.hdr.wantCompletion || alwaysCompletes c.opcode
      then (s.sendCompletion c.part c.hdr c.opcode st body).sw else s.sw := by
  obtain ⟨ds, h, hw, -⟩ := (s.leave id).wakeBehind_frame (s.memOrder c)
  simp only [complete, hc]
  rw [checkStep_frame, releaseFences_frame]
  change (if _ then ((s.leave id).wakeBehind (s.memOrder c)).sendCompletion c.part c.hdr c.opcode st body
    else (s.leave id).wakeBehind (s.memOrder c)).sw = _
  rw [hw, apply_ite sw]
  rfl

/-- Another descriptor is as it was when one completes, but for what held it. -/
theorem complete_desc_ne {s : State} {id n : Nat} {d : Desc} (h : n ≠ id) (hd : s.desc n = some d) (st : Status) (body : Octets) :
    ∃ hold, (s.complete id st body).desc n = some { d with hold := hold } := by
  rcases hc : s.desc id with _ | c
  · exact ⟨d.hold, by rw [complete, hc]; exact hd⟩
  · obtain ⟨hold, hw⟩ := wakeBehind_desc ((s.leave_desc_ne h).trans hd) (s.memOrder c)
    exact ⟨hold, by rw [desc, complete_descs hc]; exact hw⟩

/-- A descriptor that completes with a status other than OK offers its completion as the next item of the switch core. -/
theorem complete_answers {s : State} {id : Nat} {d : Desc} {st : Status} (hd : s.desc id = some d) (hst : st ≠ .ok) (hop : d.opcode ≠ 0x32)
    (body : Octets) : answered s (s.complete id st body) d.part d.hdr d.opcode st body := by
  have hsw : (s.complete id st body).sw = (s.sendCompletion d.part d.hdr d.opcode st body).sw := by simp [complete_sw hd, hst]
  unfold answered
  rw [hsw]
  exact ⟨_, List.mem_append_right _ (List.mem_singleton.2 rfl), le_refl _, rfl, rfl, rfl, by simp [hop]⟩

/-- Items of the switch core stay when a descriptor completes, and the numbers given out rise. -/
theorem complete_items (s : State) (id : Nat) (st : Status) (body : Octets) :
    s.sw.nextItem ≤ (s.complete id st body).sw.nextItem ∧ ∀ i ∈ s.sw.items, i ∈ (s.complete id st body).sw.items := by
  rcases hc : s.desc id with _ | c
  · rw [complete, hc]
    exact ⟨le_refl _, fun _ h => h⟩
  · rw [complete_sw hc]
    split
    · exact ⟨Nat.le_succ _, fun _ h => List.mem_append_left _ h⟩
    · exact ⟨le_refl _, fun _ h => h⟩

theorem completes_items (st : Status) (body : Octets) (l : List Nat) (s : State) :
    ∀ i ∈ s.sw.items, i ∈ (l.foldl (fun s id => s.complete id st body) s).sw.items := by
  induction l generalizing s with
  | nil => exact fun _ h => h
  | cons id r ih => exact fun i h => ih _ i ((s.complete_items id st body).2 i h)

/-- Of descriptors that complete one after the other, each is answered. -/
theorem completes_answer {st : Status} (hst : st ≠ .ok) {body : Octets} {l : List Nat} {s : State} {n : Nat} {d : Desc} (hn : n ∈ l)
    (hd : s.desc n = some d) (hop : d.opcode ≠ 0x32) :
    answered s (l.foldl (fun s id => s.complete id st body) s) d.part d.hdr d.opcode st body := by
  induction l generalizing s d with
  | nil => cases hn
  | cons id r ih =>
    by_cases h : n = id
    · subst h
      obtain ⟨i, hi, hrest⟩ := complete_answers hd hst hop body
      exact ⟨i, completes_items st body r _ i hi, hrest⟩
    · obtain ⟨hold, hd'⟩ := complete_desc_ne h hd st body
      obtain ⟨i, hi, hle, hrest⟩ := ih (List.mem_of_ne_of_mem h hn) hd' hop
      exact ⟨i, hi, (s.complete_items id st body).1.trans hle, hrest⟩

end State
end Sys2Proof.Machine
end

section
/-! SUPPORT. Owner bind records, and the debug records that change no key. -/

namespace Sys2Proof.Machine

/-- A fuse slot holds an owner. -/
def OwnerSlot.holds : OwnerSlot → Bool
  | .valid _ => true
  | _ => false

namespace State

/-! ### Owner bind records -/

/-- An owner bind record is a transfer: it names slot 1 of a device whose slot 0 holds an owner. -/
def transfers (s : State) (x : Octets) : Bool := octetAt 12 x == 1 && (s.ownerSlot 0).holds

/-- What R68 asks past its form of a binding and of a transfer alike. -/
def bindSigned (s : State) (x : Octets) : Bool :=
  s.namesUs x && s.nextBlank (octetAt 12 x) && ecdsaVerify (slice 16 97 x) (x.take 116) (slice 116 96 x)

/-- What an owner bind record draws, by whether it is a transfer. -/
theorem bindCase_eq (s : State) (x : Octets) :
    s.bindCase x =
      if !ownerBindForm x then .error .badDescriptor
      else if !s.transfers x && !zerosAt 212 96 x then .error .badDescriptor
      else if !s.bindSigned x then .error .notPermitted
      else if s.transfers x && !s.ownerSigned (x.take 212) (slice 212 96 x) then .error .notPermitted
      else .ok (s.transfers x) := by
  unfold bindCase transfers bindSigned
  cases s.ownerSlot 0 <;> rfl

/-- An owner bind record is taken when its form and its signatures are those of R68. -/
theorem bindCase_ok {s : State} {x : Octets} {transfer : Bool} :
    s.bindCase x = .ok transfer ↔ transfer = s.transfers x ∧ ownerBindForm x = true ∧ s.bindSigned x = true ∧
      (if transfer then s.ownerSigned (x.take 212) (slice 212 96 x) else zerosAt 212 96 x) = true := by
  rw [bindCase_eq]
  split_ifs <;> grind

/-- The status that rejects an owner bind record is never OK. -/
theorem bindCase_error {s : State} {x : Octets} {st : Status} (h : s.bindCase x = .error st) : st ≠ .ok := by
  rintro rfl
  rw [bindCase_eq] at h
  split_ifs at h <;> cases h

/-- A record that draws an error is rejected with it. -/
theorem ownerBind_rejected {s : State} {x : Octets} {st : Status} (h : s.bindCase x = .error st) :
    Completes (.ownerBind x) s (fun t => rejected s t 0x0D02 st) := by
  refine ⟨s.bindOwner x, rfl, ?_⟩
  rw [bindOwner, h]
  exact s.reject_rejected 0x0D02 st

/-- A record that is not taken is rejected with some status that is not OK. -/
theorem ownerBind_notTaken {s : State} {x : Octets} (h : ∀ transfer, s.bindCase x ≠ .ok transfer) :
    ∃ st, st ≠ .ok ∧ Completes (.ownerBind x) s (fun t => rejected s t 0x0D02 st) := by
  rcases hcase : s.bindCase x with st | transfer
  · exact ⟨st, bindCase_error hcase, ownerBind_rejected hcase⟩
  · exact absurd hcase (h transfer)

/-- The fuses once a record that names slot `octetAt 12 x` has been taken. -/
def boundOwners (s : State) (x : Octets) : List OwnerSlot :=
  s.owner.set (octetAt 12 x) (.valid (BitVec.ofNat 384 (beNat (sha384 (slice 16 97 x)))))

/-- What of the state a restart rests on: fuses, Quartz, and the entropy source. -/
def grounds (s : State) : List OwnerSlot × Quartz × EntState × Nat := (s.owner, s.quartz, s.keys.ent, s.keys.retestFails)

theorem grounds_of_footing {s t : State} (h : t.footing = { s.footing with states := t.footing.states }) : t.grounds = s.grounds :=
  congrArg (fun k : Footing => (k.owner, k.quartz, k.ent, k.retestFails)) h

theorem raise_grounds (s : State) (code : Nat) (p : Option Nat) (x : Octets) : (s.raise code p x).grounds = s.grounds :=
  grounds_of_footing (by rw [raise_footing])

theorem fuseOwner_grounds (s : State) (k : Nat) (key : Octets) (cause : Nat) :
    (s.fuseOwner k key cause).grounds =
      (s.owner.set k (.valid (BitVec.ofNat 384 (beNat (sha384 key)))), s.quartz, s.keys.ent, s.keys.retestFails) := by
  rw [fuseOwner, raise_grounds]; rfl

theorem knell_scrubAll_grounds (s : State) (trigger : Nat) : (s.knell trigger).scrubAll.grounds = s.grounds := by
  obtain ⟨hscrub, -⟩ := (s.knell trigger).scrubAll_footing
  rw [knell_footing] at hscrub
  exact grounds_of_footing hscrub

/-- The state in which a taken record has been fused: a transfer runs Knell and scrubs every partition first. -/
def fused (s : State) (x : Octets) (transfer : Bool) : State :=
  if transfer then ((s.knell 2).scrubAll).fuseOwner (octetAt 12 x) (slice 16 97 x) 2 else s.fuseOwner (octetAt 12 x) (slice 16 97 x) 1

theorem fused_grounds (s : State) (x : Octets) (transfer : Bool) :
    (s.fused x transfer).grounds = (s.boundOwners x, s.quartz, s.keys.ent, s.keys.retestFails) := by
  unfold fused
  split
  · have h := s.knell_scrubAll_grounds 2
    simp only [grounds, Prod.mk.injEq] at h
    obtain ⟨howner, hquartz, hent, hfails⟩ := h
    rw [fuseOwner_grounds, howner, hquartz, hent, hfails]
    rfl
  · exact s.fuseOwner_grounds _ _ _

theorem reply_grounds (s : State) (type : Nat) (st : Status) (body : Octets) : (s.reply type st body).grounds = s.grounds := by
  rw [(s.reply_frame type st body).1]; rfl

/-- What a warm reset keeps of a state whose grounds are known, and what it takes. -/
theorem warmReset_of_grounds {s u : State} {l : List OwnerSlot} (h : u.grounds = (l, s.quartz, s.keys.ent, s.keys.retestFails))
    (trigger : Nat) :
    (u.warmReset trigger).owner = l ∧ (u.warmReset trigger).boot.kind = .warm ∧ (u.warmReset trigger).boot.trigger = trigger ∧
      (u.warmReset trigger).keys = keysAfterReset s.keys ∧ (u.warmReset trigger).quartz.secs = s.quartz.secs ∧
      (u.warmReset trigger).basalt = [] := by
  simp only [grounds, Prod.mk.injEq] at h
  obtain ⟨howner, hquartz, hent, hfails⟩ := h
  obtain ⟨rowner, rkind, rtrigger, rkeys, rsecs, rbasalt⟩ := u.warmReset_facts trigger
  refine ⟨rowner.trans howner, rkind, rtrigger, rkeys.trans ?_, rsecs.trans (congrArg Quartz.secs hquartz), rbasalt⟩
  rw [keysAfterReset, keysAfterReset, hent, hfails]

/-- A record that is taken fuses its slot, and the device restarts without its keys. -/
theorem ownerBind_taken {s : State} {x : Octets} {transfer : Bool} (h : s.bindCase x = .ok transfer) :
    Completes (.ownerBind x) s (fun t => t.owner = s.boundOwners x ∧ t.boot.kind = .warm ∧ t.boot.trigger = 3 ∧
      t.keys = keysAfterReset s.keys ∧ t.quartz.secs = s.quartz.secs ∧ t.basalt = []) := by
  have ht : s.bindOwner x = ((s.fused x transfer).reply 0x0D02 .ok []).warmReset 3 := by
    simp only [bindOwner, h, fused]
  exact ⟨_, congrArg Host.Outcome.next ht, warmReset_of_grounds ((reply_grounds ..).trans (s.fused_grounds x transfer)) 3⟩

/-! ### Debug -/

theorem challenge_drawn {s u : State} {c : Octets} (h : s.drbg 16 = some (c, u)) (keep : Octets → State → State) :
    s.challenge keep = (keep c u).reply 0x0D12 .ok c := by
  rw [challenge, h]

/-- A challenge that the DRBG serves is drawn, kept, and answered. -/
theorem debugChallenge_drawn {s u : State} {c : Octets} (h : s.drbg 16 = some (c, u)) :
    Completes .debugChallenge s (fun t =>
      t.quartz = { s.quartz with debugChallenge := some (c, s.quartz.secs + 600, s.quartz.ns) } ∧
        mailed s t .ok (replyBytes 0x0D12 .ok c) ∧ mailOnly { s with quartz := t.quartz, keys := u.keys, freeCtr := u.freeCtr } t) := by
  refine ⟨_, congrArg Host.Outcome.next (challenge_drawn h _), ?_⟩
  have hu := drbg_frame h
  generalize hq : { u.quartz with debugChallenge := some (c, u.quartz.secs + 600, u.quartz.ns) } = q
  have hkeep : { s.quartz with debugChallenge := some (c, s.quartz.secs + 600, s.quartz.ns) } = q := by
    rw [← hq, hu]
  obtain ⟨honly, hmail⟩ := ({ u with quartz := q } : State).reply_frame 0x0D12 .ok c
  generalize ({ u with quartz := q } : State).reply 0x0D12 .ok c = t at honly hmail ⊢
  have htq : t.quartz = q := by rw [honly]
  refine ⟨htq.trans hkeep.symm, hmail.trans (by rw [hu]), ?_⟩
  rw [htq]
  refine honly.trans ?_
  rw [hu]

/-- A token of the wrong form is rejected. -/
theorem debugUnlock_badForm {s : State} {x : Octets} (h : debugForm x = false) :
    Completes (.debugUnlock x) s (fun t => rejected s t 0x0D01 .badDescriptor) := by
  refine ⟨s.unlockDebug x, rfl, ?_⟩
  rw [unlockDebug, h]
  exact s.reject_rejected 0x0D01 .badDescriptor

/-- The state of which the challenge is used up. -/
def useDebugChallenge (s : State) : State := { s with quartz := { s.quartz with debugChallenge := none } }

/-- A token that does not pass is rejected, and the challenge is used up. -/
theorem debugUnlock_notAllowed {s : State} {x : Octets} (hform : debugForm x = true) (h : s.tokenAllowed x = false) :
    Completes (.debugUnlock x) s (fun t => t.debugScope = s.debugScope ∧ rejected s.useDebugChallenge t 0x0D01 .notPermitted) := by
  refine ⟨s.unlockDebug x, rfl, ?_⟩
  have ht : s.unlockDebug x = s.useDebugChallenge.reject 0x0D01 .notPermitted := by simp [unlockDebug, hform, h, useDebugChallenge]
  have hr := s.useDebugChallenge.reject_rejected 0x0D01 .notPermitted
  rw [ht]
  refine ⟨?_, hr⟩
  rw [hr.2.2]; rfl

end State
end Sys2Proof.Machine
end

section
/-! SUPPORT. The debug unlock. -/

namespace Sys2Proof.Machine
namespace State

/-! ### The end of a debug unlock -/

theorem keySlot_mem {s : State} {n : Nat} {k : KeySlot} (h : s.keySlot n = some k) : k ∈ s.keys.slots := List.mem_of_find?_eq_some h

theorem knell_keys (s : State) (trigger : Nat) :
    (s.knell trigger).keys.derived = [] ∧ (s.knell trigger).keys.drbg = none ∧
      ∀ n k, (s.knell trigger).keySlot n = some k → k.state = .empty := by
  unfold knell
  generalize (s.keys.slots.map KeySlot.slot).foldl eraseSlot (s.abortJobs (fun _ => true)) = erased
  refine ⟨?_, ?_, fun n k hk => ?_⟩
  · rw [knellKeys_keys]; rfl
  · rw [knellKeys_keys]; rfl
  · exact knellKeys_slots (keySlot_mem hk)

/-- With no group, every accepted descriptor is answered with KEY_ERASED when the operations in flight end. -/
theorem endInFlight_answers {s : State} (hg : s.groups = []) {n : Nat} {d : Desc} (hd : s.desc n = some d) (hop : d.opcode ≠ 0x32) :
    answered s s.endInFlight d.part d.hdr d.opcode .keyErased [] := by
  have hpeals (l : List Nat) : l.foldl (fun s p => s.failPeals p .keyErased) s = s := by
    induction l with
    | nil => rfl
    | cons p r ih => rw [List.foldl_cons, failPeals_noGroup hg, ih]
  have hend : s.endInFlight = (s.descs.map Desc.id).foldl (fun s id => s.complete id .keyErased []) s := by
    rw [endInFlight, hpeals]
  have hn : n ∈ s.descs.map Desc.id :=
    List.mem_map.2 ⟨d, List.mem_of_find?_eq_some hd, by simpa using List.find?_some hd⟩
  rw [hend]
  exact completes_answer (by decide) hn hd hop

/-- After Knell the operations in flight are answered as they were accepted, where no stream, group or bulk message stands. -/
theorem knell_endInFlight_answers (s : State) (trigger : Nat) (hc : s.ctxs = []) (hg : s.groups = []) (hb : s.keys.bulk = []) (n : Nat)
    (d : Desc) (hd : s.desc n = some d) (hop : d.opcode ≠ 0x32) :
    answered s (s.knell trigger).endInFlight d.part d.hdr d.opcode .keyErased [] := by
  have hflight := knell_flight hc hb trigger
  simp only [flight, Prod.mk.injEq] at hflight
  obtain ⟨hdescs, hsw, hgroups, -, -⟩ := hflight
  have hdesc : (s.knell trigger).desc n = some d := by rw [desc, hdescs]; exact hd
  have h := endInFlight_answers (hgroups.trans hg) hdesc hop
  rwa [answered, hsw] at h

/-- A token that passes: every key is destroyed, every operation in flight has ended, and the scrub is still to come. -/
theorem debugUnlock_allowed {s : State} {x : Octets} (hform : debugForm x = true) (h : s.tokenAllowed x = true) :
    Completes (.debugUnlock x) s (fun t =>
      t.debugPending = some (octetAt 28 x) ∧ t.debugScope = s.debugScope ∧ t.quartz.debugChallenge = none ∧ t.keys.derived = [] ∧
        t.keys.drbg = none ∧ t.owner = s.owner ∧ (∀ n k, t.keySlot n = some k → k.state = .empty) ∧ t.descs = [] ∧
        (s.ctxs = [] → s.groups = [] → s.keys.bulk = [] → ∀ n d, s.desc n = some d → d.opcode ≠ 0x32 →
          answered s t d.part d.hdr d.opcode .keyErased [])) := by
  have ht : s.unlockDebug x = { (s.useDebugChallenge.knell 3).endInFlight with debugPending := some (octetAt 28 x) } := by
    simp [unlockDebug, hform, h, useDebugChallenge]
  have hfoot : (s.useDebugChallenge.knell 3).endInFlight.footing = s.useDebugChallenge.footing :=
    (footing_of_still (endInFlight_still _)).trans (knell_footing _ _)
  have hkeys : (s.useDebugChallenge.knell 3).endInFlight.keys = (s.useDebugChallenge.knell 3).keys := keys_of_still (endInFlight_still _)
  have hdescs := (s.useDebugChallenge.knell 3).endInFlight_descs
  have hanswers := s.useDebugChallenge.knell_endInFlight_answers 3
  obtain ⟨hderived, hdrbg, hslots⟩ := s.useDebugChallenge.knell_keys 3
  refine ⟨_, (congrArg Host.Outcome.next ht :), ?_⟩
  generalize (s.useDebugChallenge.knell 3).endInFlight = ended at hfoot hkeys hdescs hanswers ⊢
  obtain ⟨howner, hquartz, hscope⟩ : ended.owner = s.owner ∧ ended.quartz.debugChallenge = none ∧ ended.debugScope = s.debugScope :=
    ⟨congrArg Footing.owner hfoot, congrArg (fun k : Footing => k.quartz.debugChallenge) hfoot, congrArg Footing.debugScope hfoot⟩
  refine ⟨rfl, hscope, hquartz, ?_, ?_, howner, ?_, hdescs, ?_⟩
  · exact (congrArg KeyStore.derived hkeys).trans hderived
  · exact (congrArg KeyStore.drbg hkeys).trans hdrbg
  · intro n k hk
    refine hslots n k ?_
    rw [keySlot, ← hkeys]
    exact hk
  · exact hanswers

/-- A mailbox once the record in it has been answered. -/
def answeredMail (m : Mailbox) (type : Nat) (st : Status) (body : Octets) : Mailbox :=
  { m with status := statusCode st, reply := replyBytes type st body, current := none }

theorem reply_footing (s : State) (type : Nat) (st : Status) (body : Octets) :
    (s.reply type st body).footing = { s.footing with mail := answeredMail s.footing.mail type st body } := by
  obtain ⟨honly, hmail⟩ := s.reply_frame type st body
  generalize s.reply type st body = t at honly hmail ⊢
  have hmail : t.mail = answeredMail s.footing.mail type st body := hmail
  rw [← hmail, honly]
  rfl

/-- The state in which a scope has been unlocked. -/
def unlocked (s : State) (scope : Nat) : State := { s with debugScope := scope, debugPending := none }

theorem debugEnds_footing {s : State} {scope : Nat} (h : s.debugPending = some scope) :
    s.debugEnds.footing =
      { s.footing with
        mail := answeredMail s.mail 0x0D01 .ok [], debugScope := scope, debugPending := none, states := s.scrubAll.footing.states } := by
  obtain ⟨hscrub, -⟩ := s.scrubAll_footing
  have hends : s.debugEnds = ((s.scrubAll.unlocked scope).raise 0x0B01 none (oct 0 ++ oct scope)).reply 0x0D01 .ok [] := by
    rw [debugEnds, h]; rfl
  have hunlocked : (s.scrubAll.unlocked scope).footing = { s.scrubAll.footing with debugScope := scope, debugPending := none } := rfl
  rw [hends, reply_footing, raise_footing, hunlocked, hscrub]
  rfl

/-- The scrub of an unlock frees every partition, and the scope that the token named unlocks. -/
theorem debugEnds_facts {s : State} {scope : Nat} (h : s.debugPending = some scope) :
    s.debugEnds.debugScope = scope ∧ s.debugEnds.debugPending = none ∧ s.debugEnds.owner = s.owner ∧
      (∀ p : PartId, (s.debugEnds.part p).state = .free) ∧ mailed s s.debugEnds .ok (replyBytes 0x0D01 .ok []) := by
  have hfoot := debugEnds_footing h
  obtain ⟨-, hfree⟩ := s.scrubAll_footing
  generalize s.debugEnds = t at hfoot ⊢
  refine ⟨(congrArg Footing.debugScope hfoot :), (congrArg Footing.debugPending hfoot :), (congrArg Footing.owner hfoot :), fun p => ?_,
    (congrArg Footing.mail hfoot :)⟩
  rw [← footing_states, hfoot]
  exact hfree _

end State
end Sys2Proof.Machine
end

section
/-! PROOF. Owners and debug (R67 to R73). -/

namespace Sys2Proof.Machine
namespace State

/-! ### The fuses -/

theorem bindCase_blank {s : State} {x : Octets} (howner : s.owner = [.blank, .blank]) (hform : ownerBindForm x = true)
    (hslot : octetAt 12 x = 0) (hzeros : zerosAt 212 96 x = true) (hus : s.namesUs x = true)
    (hkey : ecdsaVerify (slice 16 97 x) (x.take 116) (slice 116 96 x) = true) : s.bindCase x = .ok false := by
  have hbinding : s.transfers x = false := by simp [transfers, hslot]
  have hnext : s.nextBlank (octetAt 12 x) = true := by simp [nextBlank, ownerSlot, howner, hslot]
  exact bindCase_ok.2 ⟨hbinding.symm, hform, by simp [bindSigned, hus, hnext, hkey], hzeros⟩

/-- On a device whose slot 0 holds an owner and whose slot 1 is blank, a record for slot 1 is a transfer, which the owner signs too. -/
theorem bindCase_owned {s : State} {x : Octets} {h : BitVec 384} (howner : s.owner = [.valid h, .blank]) (hform : ownerBindForm x = true)
    (hslot : octetAt 12 x = 1) (hus : s.namesUs x = true) (hkey : ecdsaVerify (slice 16 97 x) (x.take 116) (slice 116 96 x) = true) :
    s.bindCase x = if s.ownerSigned (x.take 212) (slice 212 96 x) then .ok true else .error .notPermitted := by
  have htransfer : s.transfers x = true := by simp [transfers, ownerSlot, howner, hslot, OwnerSlot.holds]
  have hnext : s.nextBlank (octetAt 12 x) = true := by simp [nextBlank, ownerSlot, howner, hslot]
  have hsigned : s.bindSigned x = true := by simp [bindSigned, hus, hnext, hkey]
  rw [bindCase_eq, hform, htransfer, hsigned]
  cases s.ownerSigned (x.take 212) (slice 212 96 x) <;> rfl

/-- A device whose slot 0 is void takes a binding for its blank slot 1 and nothing else. -/
theorem bindCase_void {s : State} {x : Octets} {transfer : Bool} (howner : s.owner = [.void, .blank]) :
    s.bindCase x = .ok transfer ↔ transfer = false ∧ ownerBindForm x = true ∧ octetAt 12 x = 1 ∧ zerosAt 212 96 x = true ∧
      s.namesUs x = true ∧ ecdsaVerify (slice 16 97 x) (x.take 116) (slice 116 96 x) = true := by
  have hbinding : s.transfers x = false := by simp [transfers, ownerSlot, howner, OwnerSlot.holds]
  have hnext : s.nextBlank (octetAt 12 x) = true ↔ octetAt 12 x = 1 := by
    rcases octetAt 12 x with _ | _ | k <;> simp [nextBlank, ownerSlot, howner]
  rw [bindCase_ok, hbinding]
  constructor
  · rintro ⟨rfl, hform, hsigned, hzeros⟩
    simp only [bindSigned, Bool.and_eq_true] at hsigned
    obtain ⟨⟨hus, hblank⟩, hkey⟩ := hsigned
    exact ⟨rfl, hform, hnext.1 hblank, hzeros, hus, hkey⟩
  · rintro ⟨rfl, hform, hslot, hzeros, hus, hkey⟩
    exact ⟨rfl, hform, by simp [bindSigned, hus, hnext.2 hslot, hkey], hzeros⟩

/-- A device with no blank slot takes no record. -/
theorem bindCase_full {s : State} {x : Octets} {a : OwnerSlot} {transfer : Bool} (howner : s.owner = [a, .void]) (ha : a ≠ .blank) :
    s.bindCase x ≠ .ok transfer := by
  intro h
  obtain ⟨-, -, hsigned, -⟩ := bindCase_ok.1 h
  have hnext : s.nextBlank (octetAt 12 x) = false := by
    rcases octetAt 12 x with _ | _ | k <;> simp [nextBlank, ownerSlot, howner, ha]
  simp [bindSigned, hnext] at hsigned

end State

/-! ### The statement -/

/-- Settles O55. What an owner bind record draws is `State.bindCase`; a taken one rests on `State.grounds` through Knell, scrub and warm
reset, and an unlock on `State.footing`. -/
theorem ownersAndDebug : Obligations.OwnersAndDebug := by
  unfold Obligations.OwnersAndDebug
  refine ⟨fun s x st h => State.ownerBind_rejected h, ?binding, ?transfer, ?void0, ?void1, fun s u c h => State.debugChallenge_drawn h,
    fun s x h => State.debugUnlock_badForm h, fun s x hform h => State.debugUnlock_notAllowed hform h,
    fun s x hform h => State.debugUnlock_allowed hform h, fun s scope h => State.debugEnds_facts h, fun _ _ => rfl, fun _ => rfl,
    fun _ _ _ => rfl, fun _ => rfl⟩
  case binding =>
    intro s x hform hslot hzeros hus howner hkey
    obtain ⟨t, ht, hfused, hkind, htrigger, hkeys, hsecs, -⟩ :=
      State.ownerBind_taken (State.bindCase_blank howner hform hslot hzeros hus hkey)
    refine ⟨t, ht, ?_, hkind, htrigger, hkeys, hsecs⟩
    rw [hfused, State.boundOwners, howner, hslot]; rfl
  case transfer =>
    intro s x h hform hslot hus howner hkey
    have hcase := State.bindCase_owned howner hform hslot hus hkey
    refine ⟨fun hsigned => ?_, fun hsigned => State.ownerBind_rejected (by rw [hcase, hsigned]; rfl)⟩
    obtain ⟨t, ht, hfused, hkind, -, hkeys, -, hbasalt⟩ := State.ownerBind_taken (hcase.trans (if_pos hsigned))
    refine ⟨t, ht, ?_, hkind, hkeys, hbasalt⟩
    rw [hfused, State.boundOwners, howner, hslot]; rfl
  case void0 =>
    intro s x howner
    refine ⟨by rw [State.activeOwner, howner], ?_⟩
    split
    · rename_i h
      obtain ⟨hform, hslot, hrest⟩ := h
      obtain ⟨t, ht, hfused, hkind, -, hkeys, -, -⟩ :=
        State.ownerBind_taken ((State.bindCase_void howner).2 ⟨rfl, hform, hslot, hrest⟩)
      refine ⟨t, ht, ?_, hkind, hkeys⟩
      rw [hfused, State.boundOwners, howner, hslot]; rfl
    · rename_i h
      exact State.ownerBind_notTaken fun transfer hok => h ((State.bindCase_void howner).1 hok).2
  case void1 =>
    intro s x a howner ha
    refine ⟨?_, State.ownerBind_notTaken fun transfer => State.bindCase_full howner ha⟩
    rintro rfl
    rw [State.activeOwner, howner]

end Sys2Proof.Machine
end

section
/-! EVIDENCE. Why O57 is left open: its clause on RELOAD_DONE says that the scratch of a removed cluster is empty, and in the state
below that scratch is free octets, whose values the model leaves open (log entry 3). So neither a proof nor a refutation of it can rest on the model. -/

namespace Sys2Proof.Machine
namespace State

theorem clusters_of_still {s t : State} (h : t.still = s.still) : t.clusters = s.clusters :=
  show t.still.clusters = s.still.clusters by rw [h]

theorem wakeCores_idle {s : State} {c : Nat} (h : ∀ j < 16, (s.core (16 * c + j)).stall = .none) : s.wakeCores c = s := by
  suffices hl : ∀ l : List Nat, (∀ j ∈ l, j < 16) → l.foldl (fun s j => match (s.core (16 * c + j)).stall with
      | .retry i => (s.stallCore (16 * c + j) .none).hand i
      | _ => s) s = s from hl _ (by simp)
  intro l hl
  induction l with
  | nil => rfl
  | cons j r ih =>
    rw [List.foldl_cons, h j (hl j (by simp))]
    exact ih (fun k hk => hl k (by simp [hk]))

theorem startDma_idle {s : State} {c : Nat} (h : (s.cluster c).dmaQ = []) : s.startDma c = s := by
  unfold startDma
  rw [h]

/-- A transfer that starts to send octets of scratch reads them, and changes no cluster otherwise. -/
theorem startDma_reads {s : State} {c : Nat} {j : DmaJob} {r : List DmaJob} {v : Invocation} (hq : (s.cluster c).dmaQ = j :: r)
    (hv : s.inv j.inv = some v) (hidle : j.started = false) (hsrc : dmaSpace (dmaBlock j.block).srcSpace = some .scratch)
    (hdst : dmaSpace (dmaBlock j.block).dstSpace = some .global) :
    (s.startDma c).clusters = ((s.updDma c (fun j => { j with started := true })).noteRead none .scratch (dmaBlock j.block).srcCluster
      (dmaBlock j.block).src (dmaBlock j.block).length).clusters := by
  unfold startDma
  rw [hq]
  simp only [hv, hidle, hsrc, hdst, dmaWaits]
  exact clusters_of_still (startWrite_still _ _ _ _ _ _ _)

theorem breakReserve_clusters (s : State) (key len : Nat) : (s.breakReserve key len).clusters = s.clusters := by
  unfold breakReserve
  dsimp only
  split <;> rfl

theorem placeLocal_scratch (s : State) (c a : Nat) (x : Octets) :
    (s.placeLocal .scratch c a x).cluster c = { s.cluster c with scratch := memWrite 0 (s.cluster c).scratch a x } := by
  have h : (s.breakReserve (localKey .scratch c a) x.length).cluster c = s.cluster c := by
    rw [cluster, breakReserve_clusters, cluster]
  unfold placeLocal
  simp [h]

/-- One finished matrix command that a read races with: its C becomes free octets. -/
theorem markRaced_scratch {s : State} {hit : MatWatch → Bool} {w : MatWatch} {c : Nat}
    (h : (s.cores.toList.flatMap Core.matOpen).filter (fun w => !w.raced && hit w) = [w]) (hdone : w.done = true) (hc : w.engine / 4 = c) :
    ((s.markRaced hit).cluster c).scratch = memWrite 0 (s.cluster c).scratch w.c (s.freeOctets 16384).1 := by
  unfold markRaced
  simp only [h, List.isEmpty_cons, hdone, List.filter_cons_of_pos, List.filter_nil, List.foldl_cons, List.foldl_nil, Bool.false_eq_true, if_false,
    hc]
  exact congrArg Cluster.scratch (placeLocal_scratch _ _ _ _)

end State

/-! ### The device in which a reload's zeroed scratch is written again -/

/-- Partition 1 once its reload has given it a sync object. -/
def racingNew : PartRec := { (default : PartRec) with part := 1, syncCount := 1 }

/-- Partition 1 before its reload took cluster 0 from it. -/
def racingOld : PartRec := { (default : PartRec) with part := 1, clusterMask := 1 }

/-- A DMA block that sends 16 octets from address 0 of cluster 0's scratch to GLOBAL address 0. -/
def racingBlock : Octets := [1, 0, 0, 0, 16, 0, 0, 0] ++ zeros 24

/-- A reload that takes cluster 0 from partition 1 is about to be done. At the head of cluster 1's DMA engine stands a transfer that reads
cluster 0's scratch; core 16, of cluster 1, has a finished matrix command of engine 0 that it has not waited for, whose C is there. -/
def racing : State :=
  { State.reset with
    conf := { Conf.empty with parts := [racingNew] },
    parts := State.reset.parts.set 1 { PartState.reset with state := .reloading, scrubbing := [(racingOld, [])] },
    clusters := State.reset.clusters.set 1 { State.reset.cluster 1 with dmaQ := [⟨16, 0, 0, racingBlock, false⟩] },
    cores := State.reset.cores.set 16 { Core.reset with matOpen := [⟨0, 0, [], 0, false, true⟩] },
    invs := [{ (default : Invocation) with id := 0, part := 1 }] }

/-- Clusters whose DMA engines have nothing to start and whose cores have nothing to try again stay as they are. -/
theorem State.wakeAll_idle {s : State} {l : List Nat}
    (h : ∀ c ∈ l, (s.cluster c).dmaQ = [] ∧ ∀ j < 16, (s.core (16 * c + j)).stall = .none) :
    l.foldl (fun s c => (s.wakeCores c).startDma c) s = s := by
  induction l with
  | nil => rfl
  | cons c r ih =>
    obtain ⟨hq, hs⟩ := h c (by simp)
    rw [List.foldl_cons, State.wakeCores_idle hs, State.startDma_idle hq]
    exact ih (fun k hk => h k (by simp [hk]))

/-- With no descriptor and no remote operation, what waits goes on at the DMA engines alone. -/
theorem State.releaseLater_clusters {s : State} (hd : s.descs = []) (hr : s.remoteOps = []) (p : Nat) :
    (s.releaseLater p).clusters = ((List.range 16).foldl (fun s c => (s.wakeCores c).startDma c) s).clusters := by
  unfold State.releaseLater
  simp only [hd, hr, List.filter_nil, List.foldl_nil]
  refine foldl_keeps State.clusters (fun t d => ?_) _ _
  split
  · unfold State.handOnce
    split <;> rfl
  · rfl

/-- The state in which the transfer starts. -/
def racingReady : State := racing.finishReload 1

theorem State.reloadDone_clusters {s : State} {p : Nat} (hst : (s.part p).state = .reloading) (hw : (s.part p).newWindows = none)
    (hactive : ((s.finishReload p).part p).state = .active) (hstep : ((s.finishReload p).part p).inStep = false) :
    (s.reloadDone p).clusters = ((s.finishReload p).releaseLater p).clusters := by
  have h : s.reloadDone p = ((s.finishReload p).releaseLater p).checkStep p := by simp [State.reloadDone, hst, hw, hactive, hstep]
  rw [h, State.checkStep_frame]

theorem racing_reloadDone : (racing.reloadDone 1).clusters = (racingReady.startDma 1).clusters := by
  have hrange : List.range 16 = 0 :: 1 :: [2, 3, 4, 5, 6, 7, 8, 9, 10, 11, 12, 13, 14, 15] := rfl
  have hwait : (racing.reloadDone 1).clusters = (racingReady.releaseLater 1).clusters :=
    State.reloadDone_clusters (by decide +kernel) (by decide +kernel) (by decide +kernel) (by decide +kernel)
  have hrest : ∀ c ∈ [2, 3, 4, 5, 6, 7, 8, 9, 10, 11, 12, 13, 14, 15], ((racingReady.startDma 1).cluster c).dmaQ = [] ∧
      ∀ j < 16, ((racingReady.startDma 1).core (16 * c + j)).stall = .none := by decide +kernel
  have hidle : ∀ c < 2, ∀ j < 16, (racingReady.core (16 * c + j)).stall = .none := by decide +kernel
  have hfirst : (racingReady.cluster 0).dmaQ = [] := by decide +kernel
  have hd : racingReady.descs = [] := by decide +kernel
  have hr : racingReady.remoteOps = [] := by decide +kernel
  rw [hwait, State.releaseLater_clusters hd hr, hrange, List.foldl_cons, State.wakeCores_idle (hidle 0 (by decide)), State.startDma_idle hfirst,
    List.foldl_cons, State.wakeCores_idle (hidle 1 (by decide)), State.wakeAll_idle hrest]

/-- The state in which the transfer reads. -/
def racingRead : State := racingReady.updDma 1 (fun j => { j with started := true })

/-- The transfer reads C of the command that has not been waited for: the scratch that the reload has zeroed is free octets. -/
theorem racing_scratch : ((racing.reloadDone 1).cluster 0).scratch = memWrite 0 [] 0 (racingRead.freeOctets 16384).1 := by
  have hq : (racingReady.cluster 1).dmaQ = [⟨16, 0, 0, racingBlock, false⟩] := by decide +kernel
  have hv : racingReady.inv 0 = some { (default : Invocation) with id := 0, part := 1 } := by decide +kernel
  have hread := State.startDma_reads hq hv rfl (by decide +kernel) (by decide +kernel)
  have hopen : (racingRead.cores.toList.flatMap Core.matOpen).filter (fun w => !w.raced && (none != some w.engine && Space.scratch == .scratch &&
      w.engine / 4 == 0 && rangesMeet (w.c, 16384) (0, 16))) = [⟨0, 0, [], 0, false, true⟩] := by decide +kernel
  have hraced := State.markRaced_scratch (c := 0) hopen rfl rfl
  have hzero : (racingRead.cluster 0).scratch = [] := by decide +kernel
  have hblock : (dmaBlock racingBlock).srcCluster = 0 ∧ (dmaBlock racingBlock).src = 0 ∧ (dmaBlock racingBlock).length = 16 := by
    decide +kernel
  obtain ⟨hcluster, hsrc, hlen⟩ := hblock
  rw [hcluster, hsrc, hlen] at hread
  rw [State.cluster, racing_reloadDone, hread]
  rw [hzero] at hraced
  exact hraced

/-- What O57 asks of a state before RELOAD_DONE holds of this one, in which cluster 0 is taken from partition 1. -/
theorem racing_premises :
    (racing.part (1 : PartId)).state = .reloading ∧ (racing.part (1 : PartId)).newWindows = none ∧
      (racing.part (1 : PartId)).scrubbing = [(racingOld, [])] ∧ (racing.part (1 : PartId)).inStep = false ∧
      racing.conf.partOf (1 : PartId) = some racingNew ∧ noResources racingNew { racing.conf with
        windows := racing.windows (1 : PartId), limits := racing.conf.limits.filter (fun l => l.part == (1 : PartId).val) } = false ∧
      racingOld.hasCluster (0 : ClusterId) = true ∧ racingNew.hasCluster (0 : ClusterId) = false := by decide +kernel

/-- If RELOAD_DONE leaves the removed cluster's scratch empty here, the free octet of number 0 is 0, which no rule gives. -/
theorem freeOctet_of_racing (h : Completes (.reloadDone 1) racing (fun t => (t.cluster (0 : ClusterId)).scratch = [])) :
    Config.freeOctet 0 = 0 := by
  obtain ⟨t, ht, hscratch⟩ := h
  obtain rfl : racing.reloadDone 1 = t := Host.Outcome.next.inj ht
  have hctr : racingRead.freeCtr = 0 := by decide +kernel
  have hbyte := memByte_memWrite 0 [] 0 (racingRead.freeOctets 16384).1 0
  rw [racing_scratch.symm.trans hscratch] at hbyte
  simpa [memByte, State.freeOctets, hctr] using hbyte.symm

end Sys2Proof.Machine
end

section
/-! SUPPORT. A descriptor that starts when it arrives, and the completions of descriptors whose answer is always due. -/

namespace Sys2Proof.Machine
namespace State

/-! ### A descriptor that starts at once -/

/-- The receive stage lets go of a frame: credit, and work handed on. -/
theorem freeRx_frame (s : State) (n units : Nat) :
    s.freeRx n units = { s with ports := (s.freeRx n units).ports, handed := (s.freeRx n units).handed } := by
  unfold freeRx giveUnits
  dsimp only
  split <;> split <;> rfl

theorem release_frame (s : State) (rx : Option (Nat × Nat)) :
    s.release rx = { s with ports := (s.release rx).ports, handed := (s.release rx).handed } := by
  unfold release
  split
  · exact s.freeRx_frame _ _
  · rfl

/-- What the receive stage holds of a descriptor's frame. -/
def rxOf (h : DescHdr) : Option (Nat × Nat) := if h.units == 0 then none else some (h.port.val, h.units)

/-- The book entry of a descriptor that starts when it arrives. -/
def startedDesc (s : State) (p : Nat) (h : DescHdr) (op : Nat) (cmd : Instr) : Desc :=
  ⟨s.nextDesc, p, { h with units := 0 }, op, .running, cmd, op == 0x01 || op == 0x31⟩

/-- The state in which a descriptor that starts when it arrives runs, its frame consumed. -/
def started (s : State) (p : Nat) (h : DescHdr) (op : Nat) (cmd : Instr) : State := (s.accept p h op .running cmd).2.release (rxOf h)

theorem started_frame (s : State) (p : Nat) (h : DescHdr) (op : Nat) (cmd : Instr) :
    s.started p h op cmd = { s with
      descs := s.descs ++ [s.startedDesc p h op cmd], nextDesc := s.nextDesc + 1
      ports := (s.started p h op cmd).ports, handed := (s.started p h op cmd).handed } := by
  have hearly : s.startedDesc p h op cmd = { s.startedDesc p h op cmd with beforeStep := (op == 0x01 || op == 0x31) && Hold.running != .step } := by
    simp [startedDesc]
  rw [hearly]
  exact release_frame _ _

/-- A well-formed descriptor whose resources pass runs when it arrives, under the next number. -/
theorem begin_started {s : State} {h : DescHdr} {p op : Nat} {check : State → Nat → Option (Status × Octets)} (hstart : startsAtOnce s h p)
    (hop : op ≠ 0x32) (hcheck : check s p = none) (cmd : Instr) (run : State → Nat → Nat → State) :
    s.begin h op cmd false check run = run (s.started p h op cmd) p s.nextDesc := by
  obtain ⟨hresuming, howner, hactive, hstep, hfence, hroom⟩ := hstart
  have hreply : s.stateReply p op = none := by simp [stateReply, hactive]
  have hfull : s.isFull p op = false := by simp [isFull, hop, hroom]
  simp [State.begin, beginHeld, hresuming, howner, hreply, hfull, hstep, hfence, hcheck, started, accept, rxOf]

/-! ### Completions that are always due -/

/-- A completion with this status and body is sent as it is for a descriptor of this opcode, whatever its header asks (R125, R244). -/
def alwaysSent (op : Nat) (st : Status) (body : Octets) : Prop := (st ≠ .ok ∨ alwaysCompletes op = true) ∧ (op ≠ 0x32 ∨ body ≠ [])

theorem complete_sent {s : State} {id : Nat} {d : Desc} {st : Status} {body : Octets} (hd : s.desc id = some d)
    (hsent : alwaysSent d.opcode st body) : answered s (s.complete id st body) d.part d.hdr d.opcode st body := by
  obtain ⟨hdue, hbody⟩ := hsent
  have hcond : (st != .ok || d.hdr.wantCompletion || alwaysCompletes d.opcode) = true := by
    rcases hdue with h | h <;> simp [h]
  unfold answered
  rw [complete_sw hd, if_pos hcond]
  refine ⟨_, List.mem_append_right _ (List.mem_singleton.2 rfl), le_refl _, rfl, rfl, rfl, ?_⟩
  rcases hbody with h | h <;> simp [h]

/-- An answer stands while items only join the switch core. -/
theorem answered_mono {s t u v : State} {p : Nat} {h : DescHdr} {op : Nat} {st : Status} {body : Octets} (ha : answered t u p h op st body)
    (hnext : s.sw.nextItem ≤ t.sw.nextItem) (hitems : ∀ i ∈ u.sw.items, i ∈ v.sw.items) : answered s v p h op st body := by
  obtain ⟨i, hi, hle, hrest⟩ := ha
  exact ⟨i, hitems i hi, hnext.trans hle, hrest⟩

/-- Descriptors complete one after the other. -/
def completeAll (s : State) (l : List Nat) (st : Status) (body : Octets) : State := l.foldl (fun s id => s.complete id st body) s

theorem completeAll_nextItem (st : Status) (body : Octets) (l : List Nat) (s : State) :
    s.sw.nextItem ≤ (s.completeAll l st body).sw.nextItem := by
  induction l generalizing s with
  | nil => exact le_refl _
  | cons id r ih => exact (s.complete_items id st body).1.trans (ih _)

/-- Of descriptors that complete one after the other, each whose completion is always sent is answered. -/
theorem completeAll_sent {st : Status} {body : Octets} {l : List Nat} {s : State} {n : Nat} {d : Desc} (hn : n ∈ l)
    (hd : s.desc n = some d) (hsent : alwaysSent d.opcode st body) :
    answered s (s.completeAll l st body) d.part d.hdr d.opcode st body := by
  induction l generalizing s d with
  | nil => cases hn
  | cons id r ih =>
    by_cases h : n = id
    · subst h
      exact answered_mono (complete_sent hd hsent) (le_refl _) (completes_items st body r _)
    · obtain ⟨hold, hd'⟩ := complete_desc_ne h hd st body
      have hrest := ih (List.mem_of_ne_of_mem h hn) hd' hsent
      exact answered_mono hrest (s.complete_items id st body).1 (fun _ hi => hi)

/-- A descriptor that is not among those that complete stays accepted. -/
theorem completeAll_desc_notMem {st : Status} {body : Octets} {l : List Nat} {s : State} {n : Nat} {d : Desc} (hn : n ∉ l)
    (hd : s.desc n = some d) : ∃ hold, (s.completeAll l st body).desc n = some { d with hold := hold } := by
  induction l generalizing s d with
  | nil => exact ⟨d.hold, hd⟩
  | cons id r ih =>
    simp only [List.mem_cons, not_or] at hn
    obtain ⟨hid, hr⟩ := hn
    obtain ⟨hold, hd'⟩ := complete_desc_ne hid hd st body
    obtain ⟨hold', hrest⟩ := ih hr hd'
    exact ⟨hold', hrest⟩

theorem desc_none_iff {s : State} {n : Nat} : s.desc n = none ↔ n ∉ s.descs.map Desc.id := by
  rw [desc, List.find?_eq_none]
  simp

/-- A descriptor that has completed is accepted no more. -/
theorem complete_desc_self (s : State) (id : Nat) (st : Status) (body : Octets) : (s.complete id st body).desc id = none := by
  rw [desc_none_iff, complete_ids]
  simp

theorem completeAll_desc_mem {s : State} {l : List Nat} {n : Nat} (hn : n ∈ l) (st : Status) (body : Octets) :
    (s.completeAll l st body).desc n = none := by
  rw [desc_none_iff, completeAll, completes_ids]
  simp [hn]

theorem complete_desc_none {s : State} {n : Nat} (hn : s.desc n = none) (id : Nat) (st : Status) (body : Octets) :
    (s.complete id st body).desc n = none := by
  rw [desc_none_iff] at *
  rw [complete_ids]
  exact fun h => hn (List.mem_of_mem_filter h)

/-- A completion touches what every descriptor on its way may touch. -/
theorem complete_flow (s : State) (id : Nat) (st : Status) (body : Octets) : flowOnly s (s.complete id st body) := by
  obtain ⟨w, l, ds, h, -⟩ := s.complete_frame id st body
  rw [flowOnly, h]

theorem flowOnly_trans {s t u : State} (h : flowOnly s t) (h' : flowOnly t u) : flowOnly s u := by
  rw [flowOnly] at *
  rw [h] at h'
  exact h'

theorem completeAll_flow (st : Status) (body : Octets) (l : List Nat) (s : State) : flowOnly s (s.completeAll l st body) := by
  induction l generalizing s with
  | nil => rfl
  | cons id r ih => exact flowOnly_trans (s.complete_flow id st body) (ih _)

/-- The waits that stay when a descriptor completes. -/
theorem complete_waits_of_fresh {s : State} {id : Nat} (h : ∀ w ∈ s.waits, w.desc ≠ id) (st : Status) (body : Octets) :
    (s.complete id st body).waits = s.waits := by
  obtain ⟨w, l, ds, hc, -⟩ := s.complete_frame id st body
  have hkeep : s.waits.filter (fun x => x.desc != id) = s.waits := List.filter_eq_self.2 (by simpa using h)
  rw [hc]
  simp [hkeep]

end State
end Sys2Proof.Machine
end

section
/-! SUPPORT. Sync objects (R136, R137): what each command does where it starts at once. -/

namespace Sys2Proof.Machine

theorem lookupD_setEntry {α β : Type} [BEq α] [LawfulBEq α] (k : α) (v z : β) (l : List (α × β)) : lookupD k z (setEntry k v l) = v := by
  induction l with
  | nil => simp [setEntry, lookupD]
  | cons x r ih =>
    by_cases h : x.1 = k
    · simp [setEntry, lookupD, h]
    · have hk : (k == x.1) = false := by simpa using Ne.symm h
      simpa [setEntry, lookupD, h, List.lookup, hk] using ih

theorem lookupD_setSparse {α β : Type} [BEq α] [LawfulBEq α] [BEq β] [LawfulBEq β] (k : α) (v z : β) (l : List (α × β)) :
    lookupD k z (setSparse k v z l) = v := by
  unfold setSparse
  split
  · rename_i hv
    have hnone : (l.filter (fun x => !(x.1 == k))).lookup k = none := by
      rw [List.lookup_eq_none_iff]
      intro x hx
      have hne : x.1 ≠ k := by simpa using (List.mem_filter.1 hx).2
      simpa using Ne.symm hne
    rw [lookupD, hnone]
    exact (eq_of_beq hv).symm
  · exact lookupD_setEntry k v z l

namespace State

@[simp] theorem setSync_syncValue (s : State) (id v : Nat) : (s.setSync id v).syncValue id = v := lookupD_setSparse id v 0 s.syncs

theorem syncValue_of_flow {s t : State} (h : flowOnly s t) (id : Nat) : t.syncValue id = s.syncValue id := by
  rw [flowOnly] at h
  rw [h]; rfl

/-- The state in which a sync operation runs, and the sync objects have the values `x`. -/
def syncRun (s : State) (p : Nat) (h : DescHdr) (cmd : Instr) (x : List (Nat × Nat)) : State := { s.started p h 0x20 cmd with syncs := x }

section
variable (s : State) (p : Nat) (h : DescHdr) (cmd : Instr) (x : List (Nat × Nat))

theorem syncRun_frame :
    s.syncRun p h cmd x = { s with
      descs := s.descs ++ [s.startedDesc p h 0x20 cmd], nextDesc := s.nextDesc + 1, ports := (s.started p h 0x20 cmd).ports
      handed := (s.started p h 0x20 cmd).handed, syncs := x } := by
  rw [syncRun, started_frame]

theorem started_eq_syncRun : s.started p h 0x20 cmd = s.syncRun p h cmd s.syncs := by
  rw [syncRun_frame, started_frame]

@[simp] theorem setSync_started (id v : Nat) :
    (s.started p h 0x20 cmd).setSync id v = s.syncRun p h cmd (s.setSync id v).syncs := by
  rw [setSync, started_frame, syncRun_frame]; rfl

@[simp] theorem syncValue_started (id : Nat) : (s.started p h 0x20 cmd).syncValue id = s.syncValue id := by
  rw [started_frame]; rfl

@[simp] theorem syncRun_sw : (s.syncRun p h cmd x).sw = s.sw := by rw [syncRun_frame]
@[simp] theorem syncRun_waits : (s.syncRun p h cmd x).waits = s.waits := by rw [syncRun_frame]

theorem syncRun_flow : flowOnly { s with syncs := x } (s.syncRun p h cmd x) := by
  rw [flowOnly, syncRun_frame]

variable {s p h}

theorem syncRun_desc_new (hfresh : descsFresh s) : (s.syncRun p h cmd x).desc s.nextDesc = some (s.startedDesc p h 0x20 cmd) := by
  have hold : s.descs.find? (fun d => d.id == s.nextDesc) = none := by
    rw [List.find?_eq_none]
    intro d hd
    have := hfresh.1 d hd
    simp only [beq_iff_eq]
    omega
  rw [syncRun_frame, desc, List.find?_append, hold]
  simp [startedDesc]

theorem syncRun_desc_old {n : Nat} {d : Desc} (hd : s.desc n = some d) : (s.syncRun p h cmd x).desc n = some d := by
  rw [desc] at hd
  rw [syncRun_frame, desc, List.find?_append, hd]
  rfl

/-- An operation that completes when it arrives touches nothing but the sync objects and the books, ends no wait, and is answered. -/
theorem syncRun_complete (hfresh : descsFresh s) (st : Status) (body : Octets) :
    flowOnly { s with syncs := x } ((s.syncRun p h cmd x).complete s.nextDesc st body) ∧
      ((s.syncRun p h cmd x).complete s.nextDesc st body).waits = s.waits ∧
      answered s ((s.syncRun p h cmd x).complete s.nextDesc st body) p h 0x20 st body := by
  have hwaits : ∀ w ∈ (s.syncRun p h cmd x).waits, w.desc ≠ s.nextDesc := by
    rw [syncRun_waits]
    exact fun w hw => (hfresh.2 w hw).ne
  have hsent : alwaysSent 0x20 st body := ⟨.inr rfl, .inl (by decide)⟩
  refine ⟨flowOnly_trans (s.syncRun_flow p h cmd x) (complete_flow ..), ?_, ?_⟩
  · rw [complete_waits_of_fresh hwaits, syncRun_waits]
  · exact answered_mono (complete_sent (syncRun_desc_new cmd x hfresh) hsent) (by simp) (fun _ hi => hi)

end

/-! ### The commands -/

variable {s : State} {h : DescHdr} {p id : Nat}

theorem begin_sync (hstart : startsAtOnce s h p) (hcheck : s.syncCheck p id = none) (cmd : Instr) (run : State → Nat → Nat → State) :
    s.begin h 0x20 cmd false (fun s p => s.syncCheck p id) run = run (s.started p h 0x20 cmd) p s.nextDesc :=
  begin_started (check := fun s p => s.syncCheck p id) hstart (by decide) hcheck cmd run

theorem soAdd_overflows {n : Nat} (hstart : startsAtOnce s h p) (hfresh : descsFresh s) (hid : id < 16384) (hcheck : s.syncCheck p id = none)
    (hover : 4294967295 < s.syncValue id + n) :
    Completes (.soAdd h id n) s (fun t =>
      flowOnly s t ∧ t.waits = s.waits ∧ answered s t p h 0x20 .overflow (syncBody (s.syncValue id))) := by
  refine ⟨_, rfl, ?_⟩
  rw [decide_eq_false (by omega), begin_sync hstart hcheck]
  simp only [syncAdd, syncValue_started, if_pos hover]
  rw [started_eq_syncRun]
  exact syncRun_complete _ _ hfresh _ _

theorem soReset_resets (hstart : startsAtOnce s h p) (hfresh : descsFresh s) (hid : id < 16384) (hcheck : s.syncCheck p id = none) :
    Completes (.soReset h id) s (fun t =>
      flowOnly (s.setSync id 0) t ∧ t.syncValue id = 0 ∧ t.waits = s.waits ∧ answered s t p h 0x20 .ok (syncBody 0)) := by
  refine ⟨_, rfl, ?_⟩
  rw [decide_eq_false (by omega), begin_sync hstart hcheck, setSync_started]
  obtain ⟨hflow, hwaits, hanswer⟩ := syncRun_complete (p := p) (h := h) (.soReset h id) (s.setSync id 0).syncs hfresh .ok (syncBody 0)
  exact ⟨hflow, (syncValue_of_flow hflow id).trans (s.setSync_syncValue id 0), hwaits, hanswer⟩

theorem soRead_reads (hstart : startsAtOnce s h p) (hfresh : descsFresh s) (hid : id < 16384) (hcheck : s.syncCheck p id = none) :
    Completes (.soRead h id) s (fun t =>
      flowOnly s t ∧ t.waits = s.waits ∧ answered s t p h 0x20 .ok (syncBody (s.syncValue id))) := by
  refine ⟨_, rfl, ?_⟩
  rw [decide_eq_false (by omega), begin_sync hstart hcheck, syncValue_started, started_eq_syncRun]
  exact syncRun_complete _ _ hfresh _ _

theorem soWaitGe_waits {g u : Nat} (hstart : startsAtOnce s h p) (hfresh : descsFresh s) (hid : id < 16384) (hu : u ≤ 10000000)
    (hcheck : s.syncCheck p id = none) :
    Completes (.soWaitGe h id g u) s (fun t => flowOnly s t ∧
      if g ≤ s.syncValue id then t.waits = s.waits ∧ answered s t p h 0x20 .ok (syncBody (s.syncValue id))
      else if u = 0 then t.waits = s.waits ∧ answered s t p h 0x20 .timeout (syncBody (s.syncValue id))
      else if s.waits.countP (fun w => w.part == p) < 16384 then
        t.waits = s.waits ++ [⟨s.nextDesc, p, id, g, u⟩] ∧ t.sw = s.sw ∧ (t.desc s.nextDesc).isSome = true
      else t.waits = s.waits ∧ answered s t p h 0x20 .quota (syncBody (s.syncValue id))) := by
  have hform : (decide (16384 ≤ id) || decide (10000000 < u)) = false := by simp [hid, hu]
  refine ⟨_, rfl, ?_⟩
  rw [hform, begin_sync hstart hcheck, syncValue_started, started_eq_syncRun, syncRun_waits]
  by_cases hmet : g ≤ s.syncValue id
  · simp only [if_pos hmet]
    exact syncRun_complete _ _ hfresh _ _
  by_cases hzero : u = 0
  · simp only [if_neg hmet, if_pos hzero]
    exact syncRun_complete _ _ hfresh _ _
  by_cases hroom : s.waits.countP (fun w => w.part == p) < 16384
  · simp only [if_neg hmet, if_neg hzero, if_pos hroom, if_neg (not_le.2 hroom), true_and]
    have hdesc := syncRun_desc_new (p := p) (h := h) (.soWaitGe h id g u) s.syncs hfresh
    exact ⟨flowOnly_trans (s.syncRun_flow p h _ _) rfl, syncRun_sw .., Option.isSome_of_mem hdesc⟩
  · simp only [if_neg hmet, if_neg hzero, if_neg hroom, if_pos (not_lt.1 hroom)]
    exact syncRun_complete _ _ hfresh _ _

theorem soWaitTimeout_ends {n : Nat} {w : SyncWait} {d : Desc} (hw : s.waits.find? (fun x => x.desc == n) = some w) (hd : s.desc n = some d) :
    Completes (.soWaitTimeout n) s (fun t => flowOnly s t ∧ t.desc n = none ∧
      answered s t d.part d.hdr d.opcode .timeout (syncBody (s.syncValue w.sync))) := by
  have hexec : exec (.soWaitTimeout n) s = .next (s.complete n .timeout (syncBody (s.syncValue w.sync))) := by
    show execSoWaitTimeout n s = _
    rw [execSoWaitTimeout, hw]
  have hbody : syncBody (s.syncValue w.sync) ≠ [] := by simp [syncBody, zeros]
  exact ⟨_, hexec, complete_flow .., complete_desc_self .., complete_sent hd ⟨.inl (by decide), .inr hbody⟩⟩

/-! ### The waits that an ADD meets -/

/-- The descriptors whose wait on a sync object a value meets, in order of arrival. -/
def metBy (s : State) (id v : Nat) : List Nat := (s.waits.filter (fun w => w.sync == id && decide (w.target ≤ v))).map SyncWait.desc

theorem mem_metBy {v n : Nat} : n ∈ s.metBy id v ↔ ∃ w ∈ s.waits, w.sync = id ∧ w.target ≤ v ∧ w.desc = n := by
  simp [metBy, and_assoc]

/-- An ADD that fits sets the value, and completes the waits it meets and then itself. -/
theorem soAdd_exec {n : Nat} (hstart : startsAtOnce s h p) (hid : id < 16384) (hcheck : s.syncCheck p id = none)
    (hfits : s.syncValue id + n ≤ 4294967295) :
    exec (.soAdd h id n) s = .next ((s.syncRun p h (.soAdd h id n) (s.setSync id (s.syncValue id + n)).syncs).completeAll
      (s.metBy id (s.syncValue id + n) ++ [s.nextDesc]) .ok (syncBody (s.syncValue id + n))) := by
  let v := s.syncRun p h (.soAdd h id n) (s.setSync id (s.syncValue id + n)).syncs
  have hv : v.syncValue id = s.syncValue id + n := s.setSync_syncValue id _
  have hmet : v.meetWaits id = v.completeAll (s.metBy id (s.syncValue id + n)) .ok (syncBody (s.syncValue id + n)) := by
    simp only [meetWaits, hv, v, syncRun_waits]; rfl
  have hvalue : (v.meetWaits id).syncValue id = s.syncValue id + n := by
    rw [hmet, syncValue_of_flow (completeAll_flow ..), hv]
  refine congrArg Host.Outcome.next ?_
  rw [decide_eq_false (by omega), begin_sync hstart hcheck]
  simp only [syncAdd, syncValue_started, if_neg (not_lt.2 hfits), setSync_started]
  show (v.meetWaits id).complete s.nextDesc .ok (syncBody ((v.meetWaits id).syncValue id)) = _
  rw [hvalue, hmet, completeAll, completeAll, List.foldl_append]
  rfl

/-- An ADD that fits, where every wait stands under a sync operation: the value rises, the ADD is answered, and each wait that the value meets
ends and is answered. -/
theorem soAdd_adds {n : Nat} (hstart : startsAtOnce s h p) (hfresh : descsFresh s) (hid : id < 16384) (hcheck : s.syncCheck p id = none)
    (hfits : s.syncValue id + n ≤ 4294967295) (hops : ∀ w ∈ s.waits, ∀ d, s.desc w.desc = some d → d.opcode = 0x20) :
    Completes (.soAdd h id n) s (fun t =>
      flowOnly (s.setSync id (s.syncValue id + n)) t ∧ answered s t p h 0x20 .ok (syncBody (s.syncValue id + n)) ∧
      ∀ w ∈ s.waits, w.sync = id → w.target ≤ s.syncValue id + n → t.desc w.desc = none ∧
        ∀ d, s.desc w.desc = some d → answered s t d.part d.hdr d.opcode .ok (syncBody (s.syncValue id + n))) := by
  refine ⟨_, soAdd_exec hstart hid hcheck hfits, flowOnly_trans (s.syncRun_flow p h _ _) (completeAll_flow ..), ?_, fun w hw hsync htarget => ?_⟩
  · have hown := completeAll_sent (st := .ok) (body := syncBody (s.syncValue id + n))
      (List.mem_append_right (s.metBy id (s.syncValue id + n)) (List.mem_singleton.2 rfl))
      (syncRun_desc_new (p := p) (h := h) (.soAdd h id n) (s.setSync id (s.syncValue id + n)).syncs hfresh)
      ⟨.inr rfl, .inl (by simp [startedDesc])⟩
    exact answered_mono hown (by simp) (fun _ hi => hi)
  · have hmem : w.desc ∈ s.metBy id (s.syncValue id + n) ++ [s.nextDesc] :=
      List.mem_append_left _ (mem_metBy.2 ⟨w, hw, hsync, htarget, rfl⟩)
    refine ⟨completeAll_desc_mem hmem _ _, fun d hd => ?_⟩
    have hop := hops w hw d hd
    have hsent : alwaysSent d.opcode .ok (syncBody (s.syncValue id + n)) := by rw [hop]; exact ⟨.inr rfl, .inl (by decide)⟩
    exact answered_mono (completeAll_sent hmem (syncRun_desc_old _ _ hd) hsent) (by simp) (fun _ hi => hi)

end State
end Sys2Proof.Machine
end

section
/-! PROOF. Sync objects (R136, R137): a state in which ADD meets a wait and sends no completion for it. -/

namespace Sys2Proof.Machine

/-- Partition 1, which holds sync object 0. -/
def unheardPart : PartRec := { (default : PartRec) with part := 1, syncCount := 1 }

/-- A header of partition 1's pair that asks for no completion on success. -/
def unheardHdr : DescHdr :=
  { port := 0, vlan := 10, cls := 0, src := 1, wantCompletion := false, fence := false, tag := 7, stream := 0, units := 0 }

/-- Partition 1 is ACTIVE, and a wait on sync object 0 for the value 1 stands under its descriptor 0, a MEM_PUT. -/
def unheard : State :=
  { State.reset with
    conf := { Conf.empty with parts := [unheardPart] },
    parts := State.reset.parts.set 1 { PartState.reset with state := .active, pairs := [(0, 10)] },
    descs := [⟨0, 1, unheardHdr, 0x10, .running, .memPut unheardHdr ⟨.basalt, 0, 8, 0⟩ (zeros 8), false⟩],
    waits := [⟨0, 1, 0, 1, 0⟩], nextDesc := 1 }

theorem unheard_premises :
    startsAtOnce unheard unheardHdr 1 ∧ descsFresh unheard ∧ unheard.syncCheck 1 0 = none ∧ unheard.syncValue 0 + 1 ≤ 4294967295 := by
  decide +kernel

/-- The ADD that meets the wait sends one completion, its own. -/
theorem unheard_completions {t : State} (h : exec (.soAdd unheardHdr 0 1) unheard = .next t) :
    t.sw.items.map Item.load =
      [.frame unheardHdr.src none 0x88B5 (yuvBytes 2 0x20 (statusCode .ok) unheardHdr.tag.toNat unheardHdr.stream (syncBody 1))] := by
  obtain rfl := Host.Outcome.next.inj h
  decide +kernel

/-- Refutes O16: its first clause claims an answer to every wait that an ADD meets, whatever descriptor the wait stands under, but an OK
completion whose opcode is not among `alwaysCompletes` and whose header asks for none is not sent (R125). In `unheard` such a wait stands
under a MEM_PUT. Where every wait stands under a sync operation the clause holds (`State.soAdd_adds`), and the other five hold as they are
(`State.soAdd_overflows`, `State.soReset_resets`, `State.soRead_reads`, `State.soWaitGe_waits`, `State.soWaitTimeout_ends`). -/
theorem not_syncObjects : ¬ Obligations.SyncObjects := by
  unfold Obligations.SyncObjects
  rintro ⟨hadd, -⟩
  obtain ⟨hstart, hfresh, hcheck, hvalue⟩ := unheard_premises
  obtain ⟨t, ht, -, -, hwaits⟩ := hadd unheard unheardHdr 1 0 1 hstart hfresh (by decide) hcheck hvalue
  obtain ⟨-, hanswer⟩ := hwaits ⟨0, 1, 0, 1, 0⟩ (List.mem_singleton.2 rfl) rfl (by decide +kernel)
  obtain ⟨i, hi, -, -, -, -, hload⟩ := hanswer _ rfl
  have hsent := List.mem_map_of_mem (f := Item.load) hi
  rw [unheard_completions ht, hload] at hsent
  exact absurd hsent (by decide +kernel)

end Sys2Proof.Machine
end

section
/-! SUPPORT. Octets read back: a number written in network order, and the one piece of a record under its carrier header (R3, R459). -/

namespace Sys2Proof.Machine

theorem beNat_append_singleton (x : Octets) (b : Byte) : beNat (x ++ [b]) = beNat x * 256 + b.toNat := by
  simp [beNat]

theorem beNat_reverse (x : Octets) : beNat x.reverse = leNat x := by
  induction x with
  | nil => rfl
  | cons b r ih => rw [List.reverse_cons, beNat_append_singleton, ih, leNat]; omega

theorem leNat_leBytes (n v : Nat) : leNat (leBytes n v) = v % 256 ^ n := by
  induction n generalizing v with
  | zero => simp [leBytes, leNat, Nat.mod_one]
  | succ n ih =>
    rw [leBytes, leNat, ih, Nat.pow_succ', Nat.mod_mul]
    simp

theorem beNat_beBytes (n v : Nat) : beNat (beBytes n v) = v % 256 ^ n := by
  rw [beBytes, beNat_reverse, leNat_leBytes]

section
variable (y : Octets)

@[simp] theorem carrierBytes_length : (carrierBytes y).length = 16 + y.length := by
  simp [carrierBytes, zeros, beBytes, leBytes]; omega

@[simp] theorem drop_carrierBytes : (carrierBytes y).drop 16 = y := rfl
@[simp] theorem octetAt_carrierBytes : octetAt 0 (carrierBytes y) = 3 := rfl
@[simp] theorem zerosAt_one_carrierBytes : zerosAt 1 3 (carrierBytes y) = true := rfl
@[simp] theorem zerosAt_eight_carrierBytes : zerosAt 8 8 (carrierBytes y) = true := rfl
@[simp] theorem zerosAt_twelve_carrierBytes : zerosAt 12 4 (carrierBytes y) = true := rfl
@[simp] theorem beAt_eight_carrierBytes : beAt 8 4 (carrierBytes y) = 0 := rfl

variable {y}

theorem beAt_four_carrierBytes (h : y.length < 2 ^ 32) : beAt 4 4 (carrierBytes y) = y.length :=
  calc beAt 4 4 (carrierBytes y) = beNat (beBytes 4 y.length) := rfl
    _ = y.length := by rw [beNat_beBytes]; omega

end
end Sys2Proof.Machine
end

section
/-! SUPPORT. Sessions by their number: what a change of one, a reply on one, and the end of one leave of the others (R103, R421). -/

namespace Sys2Proof.Machine
namespace State

/-! ### Sessions -/

theorem session_id {s : State} {n : Nat} {x : Session} (h : s.session n = some x) : x.id = n := by
  simpa using List.find?_some h

theorem session_none {s : State} {n : Nat} : s.session n = none ↔ n ∉ s.tocsin.sessions.map Session.id := by
  simp [session, List.find?_eq_none]

theorem sessions_nil {s : State} (h : ∀ n, s.session n = none) : s.tocsin.sessions = [] := by
  rw [← List.map_eq_nil_iff (f := Session.id), List.eq_nil_iff_forall_not_mem]
  exact fun n => session_none.1 (h n)

theorem session_of_tocsin {s t : State} (h : t.tocsin = s.tocsin) (n : Nat) : t.session n = s.session n := by
  rw [session, session, h]

/-- A session changed without its number is the one that its number finds, and no other session is changed. -/
theorem updSession_session {f : Session → Session} (hf : ∀ x, (f x).id = x.id) (s : State) (n k : Nat) :
    (s.updSession n f).session k = if k = n then (s.session k).map f else s.session k := by
  rw [session, updSession, mapWhen, List.find?_map]
  have hid : ((fun x : Session => x.id == k) ∘ fun x => if x.id == n then f x else x) = fun x => x.id == k := by
    funext x
    dsimp only [Function.comp]
    split <;> simp [hf]
  rw [hid, ← session]
  rcases h : s.session k with _ | x
  · simp
  · have hx := session_id h
    by_cases hk : k = n <;> simp [hx, hk]

/-- A session that is found once it has been changed. -/
theorem updSession_session_self {f : Session → Session} (hf : ∀ x, (f x).id = x.id) {s : State} {n : Nat} {x : Session}
    (h : s.session n = some x) : (s.updSession n f).session n = some (f x) := by
  rw [updSession_session hf, if_pos rfl, h, Option.map_some]

theorem updSession_session_ne {f : Session → Session} (hf : ∀ x, (f x).id = x.id) (s : State) {n k : Nat} (h : k ≠ n) :
    (s.updSession n f).session k = s.session k := by
  rw [updSession_session hf, if_neg h]

@[simp] theorem sendTocsin_session (s : State) (port : Nat) (x : Octets) (k : Nat) : (s.sendTocsin port x).session k = s.session k := by
  unfold sendTocsin
  split <;> rfl

/-- A frame leaves on a linked port. -/
theorem sendTocsin_linked {s : State} {port : Nat} (h : s.tocsin.links.getD port false = true) (x : Octets) :
    s.sendTocsin port x = s.emit (.tocsin port x) := if_pos h

theorem sendTocsin_frame (s : State) (port : Nat) (x : Octets) : s.sendTocsin port x = { s with out := (s.sendTocsin port x).out } := by
  unfold sendTocsin
  split <;> rfl

/-- A reply changes no session but the one it leaves by, which counts it. -/
theorem sendReply_session (s : State) (id port : Nat) (x : Octets) (k : Nat) :
    (s.sendReply id port x).session k =
      if k = id ∧ id ≠ 0 then (s.session k).map (fun y => { y with txSeq := y.txSeq + 1 }) else s.session k := by
  unfold sendReply
  split
  · simp_all
  · rename_i hid
    rcases h : s.session id with _ | ss
    · by_cases hk : k = id <;> simp [hk, h]
    · dsimp only
      rw [sendTocsin_session, updSession_session (by simp)]
      by_cases hk : k = id
      · subst hk
        simp_all
      · simp [hk]

end State
end Sys2Proof.Machine
end

section
/-! SUPPORT. The end of a session, and of the image update that it carries (R103, R421). -/

namespace Sys2Proof.Machine

/-- `t` is `s` but for what the end of an image update may touch: flash, the status and reply that stand in the mailbox, sessions and frames
of the Tocsin ports, and the event log. -/
abbrev updateOnly (s t : State) : Prop :=
  t = { s with flash := t.flash, mail := { s.mail with status := t.mail.status, reply := t.mail.reply }, tocsin := t.tocsin, out := t.out,
               events := t.events }

theorem updateOnly_trans {s t u : State} (h : updateOnly s t) (g : updateOnly t u) : updateOnly s u := by
  unfold updateOnly at *
  generalize u.flash = a, u.mail.status = b, u.mail.reply = c, u.tocsin = d, u.out = e, u.events = f at g
  rw [g, h]

/-- From `s` to `t` an image update whose records came by `via` was answered: no session but that one's changes, none is formed, and the
device keeps the update that stands. -/
structure UpdateAnswered (via : Option (Nat × Nat)) (s t : State) : Prop where
  only : updateOnly s t
  update : t.flash.update = s.flash.update
  none : ∀ k, s.session k = none → t.session k = none
  others : ∀ k, (∀ v ∈ via, v.1 ≠ k) → t.session k = s.session k

namespace UpdateAnswered

variable {via : Option (Nat × Nat)} {s t u : State}

theorem trans (h : UpdateAnswered via s t) (g : UpdateAnswered via t u) : UpdateAnswered via s u :=
  ⟨updateOnly_trans h.only g.only, g.update.trans h.update, fun k hk => g.none k (h.none k hk),
    fun k hk => (g.others k hk).trans (h.others k hk)⟩

/-- Flash and the event log are no session's. -/
theorem of_log {e : EventLog} {f : Flash} (h : t = { s with events := e, flash := f }) (hf : f.update = s.flash.update) :
    UpdateAnswered via s t := by
  subst h
  exact ⟨rfl, hf, fun _ h => h, fun _ _ => rfl⟩

end UpdateAnswered

namespace State

variable (s : State) (via : Option (Nat × Nat))

theorem raise_answered (code : Nat) (p : Option Nat) (x : Octets) : UpdateAnswered via s (s.raise code p x) := by
  obtain ⟨e, f, h, -, hu, -⟩ := s.raise_frame code p x
  exact .of_log h hu

theorem slateEvent_answered (cause dev slot step off : Nat) (overflow : Bool) : UpdateAnswered via s (s.slateEvent cause dev slot step off overflow) :=
  s.raise_answered via _ _ _

theorem secondLost_answered (u : Update) : UpdateAnswered via s (s.secondLost u) := by
  unfold secondLost
  split
  · exact s.slateEvent_answered via _ _ _ _ _ _
  · exact .of_log rfl rfl

theorem updFlashDev_answered (d : Nat) (f : FlashDev → FlashDev) : UpdateAnswered via s (s.updFlashDev d f) := .of_log rfl rfl

theorem sendReply_answered (id port : Nat) (x : Octets) : UpdateAnswered (some (id, port)) s (s.sendReply id port x) := by
  have hframe := s.sendReply_frame id port x
  refine ⟨?_, ?_, fun k hk => ?_, fun k hk => ?_⟩
  · generalize s.sendReply id port x = t at hframe ⊢
    rw [hframe]
  · rw [hframe]
  · simp [sendReply_session, hk]
  · have hne : k ≠ id := (hk _ rfl).symm
    simp [sendReply_session, hne]

/-- The status and the reply that stand in the mailbox are no session's. -/
theorem setReply_answered (st : Nat) (x : Octets) :
    UpdateAnswered via s { s with mail := { s.mail with status := st, reply := x } } := ⟨rfl, rfl, fun _ h => h, fun _ _ => rfl⟩

theorem lateReply_answered (u : Update) (st : Status) : UpdateAnswered u.via s (s.lateReply u st) := by
  unfold lateReply
  split
  · rename_i type _
    dsimp only
    generalize hput : (if s.mail.current.isNone then
      ({ s with mail := { s.mail with status := statusCode st, reply := replyBytes type st [] } } : State) else s) = put
    have h : UpdateAnswered u.via s put := by
      rw [← hput]
      split
      · exact s.setReply_answered u.via _ _
      · exact .of_log rfl rfl
    split
    · rename_i id port hv
      rw [hv] at h ⊢
      exact h.trans (put.sendReply_answered id port _)
    · exact h
  · exact .of_log rfl rfl

/-- An update that is abandoned is no more, and what it owed is answered on its own session alone. -/
theorem abandonUpdate_answered {s : State} {u : Update} (h : s.flash.update = some u) (step : Nat) (overflow : Bool) :
    UpdateAnswered u.via (s.setUpdate none) (s.abandonUpdate step overflow) := by
  unfold abandonUpdate
  rw [h]
  dsimp only
  split
  · exact .of_log rfl rfl
  · split
    · exact ((updFlashDev_answered _ _ _ _).trans (lateReply_answered _ u .ok)).trans (secondLost_answered _ _ u)
    · exact secondLost_answered _ _ u
    · exact ((updFlashDev_answered _ _ _ _).trans (lateReply_answered _ u .notPermitted)).trans (slateEvent_answered ..)
    · exact (lateReply_answered _ u .notPermitted).trans (slateEvent_answered ..)

theorem abandonUpdate_only (step : Nat) (overflow : Bool) : updateOnly s (s.abandonUpdate step overflow) := by
  rcases h : s.flash.update with _ | u
  · rw [abandonUpdate, h]
  · exact updateOnly_trans rfl (abandonUpdate_answered h step overflow).only

theorem abandonUpdate_update (step : Nat) (overflow : Bool) : (s.abandonUpdate step overflow).flash.update = none := by
  rcases h : s.flash.update with _ | u
  · rw [abandonUpdate, h]; exact h
  · exact (abandonUpdate_answered h step overflow).update

theorem abandonUpdate_session_none {s : State} {k : Nat} (hk : s.session k = none) (step : Nat) (overflow : Bool) :
    (s.abandonUpdate step overflow).session k = none := by
  rcases h : s.flash.update with _ | u
  · rw [abandonUpdate, h]; exact hk
  · exact (abandonUpdate_answered h step overflow).none k hk

/-! ### The end of a session -/

variable (n : Nat)

theorem sessionUpdate_only : updateOnly s (s.sessionUpdate n) := by
  unfold sessionUpdate
  split
  · split
    · exact s.abandonUpdate_only 0 false
    · rfl
  · rfl

theorem sessionUpdate_session_ne {n k : Nat} (hk : k ≠ n) : (s.sessionUpdate n).session k = s.session k := by
  unfold sessionUpdate
  split
  · rename_i u hu
    split
    · rename_i hvia
      refine (abandonUpdate_answered hu 0 false).others k fun v hv hvk => hk ?_
      rw [Option.mem_def] at hv
      simp_all
    · rfl
  · rfl

theorem endSession_only : updateOnly s (s.endSession n) := by
  unfold endSession
  split
  · rfl
  · exact updateOnly_trans (s.sessionUpdate_only n) rfl

/-- A session that ends is gone, and no other is changed. -/
theorem endSession_session (k : Nat) : (s.endSession n).session k = if k = n then none else s.session k := by
  unfold endSession
  split
  · rename_i h
    split
    · rename_i hk
      rw [hk]
      exact Option.isNone_iff_eq_none.1 h
    · rfl
  · split
    · rename_i hk
      simp [session_none, hk]
    · rename_i hk
      rw [← s.sessionUpdate_session_ne hk, session, session, List.find?_filter]
      congr 1
      funext x
      by_cases hx : x.id = k <;> simp [hx, hk]

theorem endSession_ends : (s.endSession n).session n = none ∧ ∀ k, k ≠ n → (s.endSession n).session k = s.session k := by
  simp +contextual [endSession_session]

theorem endSessions_only (l : List Nat) (s : State) : updateOnly s (l.foldl endSession s) := by
  induction l generalizing s with
  | nil => rfl
  | cons n r ih => exact updateOnly_trans (s.endSession_only n) (ih (s.endSession n))

theorem endSessions_session (l : List Nat) (s : State) (k : Nat) :
    (l.foldl endSession s).session k = if k ∈ l then none else s.session k := by
  induction l generalizing s with
  | nil => rfl
  | cons n r ih =>
    rw [List.foldl_cons, ih, endSession_session]
    by_cases hr : k ∈ r <;> by_cases hn : k = n <;> simp [hr, hn]

/-- The sessions of a device, ended one after the other, are no more. -/
theorem endAll_session (k : Nat) : ((s.tocsin.sessions.map Session.id).foldl endSession s).session k = none := by
  rw [endSessions_session]
  split
  · rfl
  · rename_i h
    exact session_none.2 h

end State
end Sys2Proof.Machine
end

section
/-! SUPPORT. HELLO and PROOF: the session that is formed, its number, and how it opens (R417, R420). -/

namespace Sys2Proof.Machine
namespace State

/-! ### The session number -/

/-- The numbers that the device goes through for a new session; one of them is neither 0 nor a session's. -/
theorem newSessionId_fresh {s : State} (h : s.tocsin.sessions.length < 2 ^ 31) :
    s.newSessionId ≠ 0 ∧ s.session s.newSessionId = none := by
  let v := (Config.sessionId s.tocsin.formed).toNat
  let numbers := (List.range (s.tocsin.sessions.length + 2)).map (fun i => (v + i) % 2 ^ 32)
  have hnumber : s.newSessionId = (numbers.find? (fun x => x != 0 && (s.session x).isNone)).getD 1 := rfl
  rcases hfind : numbers.find? (fun x => x != 0 && (s.session x).isNone) with _ | n
  · exfalso
    have htaken : numbers ⊆ 0 :: s.tocsin.sessions.map Session.id := by
      intro x hx
      have hno := List.find?_eq_none.1 hfind x hx
      by_cases hzero : x = 0
      · simp [hzero]
      · have hsome : s.session x ≠ none := by simpa [hzero] using hno
        exact List.mem_cons_of_mem _ (not_not.1 (mt session_none.2 hsome))
    have hnodup : numbers.Nodup := by
      refine List.Nodup.map_on (fun i hi j hj hij => ?_) List.nodup_range
      rw [List.mem_range] at hi hj
      omega
    have hlength := (hnodup.subperm htaken).length_le
    simp [numbers] at hlength
  · rw [hnumber, hfind]
    simpa using List.find?_some hfind

/-- Where there are the same sessions, formed as often, the same number is free. -/
theorem newSessionId_of_tocsin {s t : State} (h : t.tocsin = s.tocsin) : t.newSessionId = s.newSessionId := by
  simp only [newSessionId, session_of_tocsin h, h]

/-! ### HELLO -/

/-- The session that a HELLO `b` forms: its number, the CHALLENGE `x`, and the keys of the shared secret `z` and the nonce. -/
def helloSession (n : Nat) (b x z nonce : Octets) : Session :=
  { id := n, isOpen := false, serial := beAt 4 4 (b.take 212), notAfter := beAt 8 8 (b.take 212), opKeyPoint := slice 16 97 (b.take 212),
    hello := b, challenge := x, opKey := slice 0 32 (sessionKeys z nonce), opSalt := slice 32 4 (sessionKeys z nonce),
    devKey := slice 48 32 (sessionKeys z nonce), devSalt := slice 80 4 (sessionKeys z nonce), rxSeq := 0, txSeq := 0, assembling := none }

/-- The CHALLENGE that answers a HELLO `b`, under the identity key and with two free scalars (R420). -/
def challengeBody (e k : Nat) (id nonce b : Octets) : Octets :=
  let head := p384Encode (p384Mul e p384G) ++ zeros 3 ++ nonce
  head ++ ecdsaSign (scalarOfKey id) k (b ++ head)

/-- A certificate taken while Quartz is not set has its event (R419). -/
def certTaken (s : State) (b : Octets) : State :=
  if s.quartz.set then s else s.raise 0x0C01 none (oct 1 ++ leBytes 4 (beAt 4 4 (b.take 212)))

theorem certTaken_frame (s : State) (b : Octets) : s.certTaken b = { s with events := (s.certTaken b).events } := by
  unfold certTaken
  split
  · rfl
  · exact raise_plain rfl _ _ _

/-- A session joins the others. -/
def formSession (s : State) (x : Session) : State :=
  { s with tocsin := { s.tocsin with sessions := s.tocsin.sessions ++ [x], formed := s.tocsin.formed + 1 } }

section
variable {s u : State} {port : MgmtPort} {f : TocsinFrame} {id nonce : Octets} {q : Nat × Nat}

theorem openSession_eq {b : Octets} (hid : s.derivedKey 6 = some id) (hq : p384Decode (slice 212 97 b) = some q)
    (hnonce : s.freeScalar.2.freeScalar.2.drbg 16 = some (nonce, u)) :
    let x := helloSession (u.certTaken b).newSessionId b (challengeBody s.freeScalar.1 s.freeScalar.2.freeScalar.1 id nonce b)
      ((ecdhX s.freeScalar.1 (some q)).getD []) nonce
    s.openSession port b = ((u.certTaken b).formSession x).sendTocsin port (tocsinBytes 0x11 x.id 0 x.challenge) := by
  simp only [openSession, hid, hq, hnonce]
  rfl

/-- What the octets for a CHALLENGE cost: the DRBG and free values. -/
theorem nonce_frame (h : s.freeScalar.2.freeScalar.2.drbg 16 = some (nonce, u)) :
    u = { s with keys := u.keys, freeCtr := u.freeCtr } := by
  have hu := drbg_frame h
  generalize u.keys.drbg = d, u.freeCtr = c at hu
  rw [hu]
  rfl

theorem hello_exec (hsession : f.session = 0) (hlength : f.body.length = 312) :
    exec (.hello port f) s = .next (if s.fwServes && s.helloOk f.body then s.openSession port f.body else s) := by
  show execHello port f s = _
  simp [execHello, hsession, hlength]

theorem hello_badForm (h : f.session ≠ 0 ∨ f.body.length ≠ 312) : exec (.hello port f) s = .next (s.dropTocsin port) := by
  show execHello port f s = _
  rw [execHello, if_pos (by simpa using h)]

theorem hello_refused (hsession : f.session = 0) (hlength : f.body.length = 312) (h : s.fwServes = false ∨ s.helloOk f.body = false) :
    exec (.hello port f) s = .next s := by
  rw [hello_exec hsession hlength, if_neg]
  rcases h with h | h <;> simp [h]

theorem hello_forms (hsession : f.session = 0) (hlength : f.body.length = 312) (hserves : s.fwServes = true)
    (hok : s.helloOk f.body = true) (hid : s.derivedKey 6 = some id) (hq : p384Decode (slice 212 97 f.body) = some q)
    (hnonce : s.freeScalar.2.freeScalar.2.drbg 16 = some (nonce, u)) :
    let z := (ecdhX s.freeScalar.1 (some q)).getD []
    Completes (.hello port f) s (fun t =>
      (∃ x : Session, t.tocsin.sessions = s.tocsin.sessions ++ [x] ∧ x.isOpen = false ∧ x.hello = f.body ∧ x.rxSeq = 0 ∧ x.txSeq = 0 ∧
        x.opKeyPoint = slice 16 97 (f.body.take 212) ∧ x.notAfter = beAt 8 8 (f.body.take 212) ∧
        x.opKey = slice 0 32 (sessionKeys z nonce) ∧ x.devKey = slice 48 32 (sessionKeys z nonce) ∧
        (s.tocsin.sessions.length < 2 ^ 31 → x.id ≠ 0 ∧ s.session x.id = none) ∧
        (s.tocsin.links.getD port false = true → t.out = s.out ++ [.tocsin port (tocsinBytes 0x11 x.id 0 x.challenge)])) ∧
      t = { s with tocsin := t.tocsin, out := t.out, keys := u.keys, freeCtr := u.freeCtr, events := t.events }) := by
  intro z
  have hu := nonce_frame hnonce
  generalize hv : u.certTaken f.body = v
  have hvs : v = { s with keys := u.keys, freeCtr := u.freeCtr, events := v.events } := by
    have hcert := u.certTaken_frame f.body
    rw [hv] at hcert
    generalize v.events = e, u.keys = k, u.freeCtr = c at hcert hu
    rw [hcert, hu]
  have htocsin : v.tocsin = s.tocsin := by rw [hvs]
  have hvout : v.out = s.out := by rw [hvs]
  let x := helloSession v.newSessionId f.body (challengeBody s.freeScalar.1 s.freeScalar.2.freeScalar.1 id nonce f.body) z nonce
  have hexec : exec (.hello port f) s = .next ((v.formSession x).sendTocsin port (tocsinBytes 0x11 x.id 0 x.challenge)) := by
    rw [hello_exec hsession hlength, hserves, hok, Bool.and_self, if_pos rfl, openSession_eq hid hq hnonce, hv]
  have hsent := (v.formSession x).sendTocsin_frame port (tocsinBytes 0x11 x.id 0 x.challenge)
  refine ⟨_, hexec, ⟨x, ?_, rfl, rfl, rfl, rfl, rfl, rfl, rfl, rfl, fun hroom => ?_, fun hlink => ?_⟩, ?_⟩
  · rw [hsent, formSession, htocsin]
  · rw [show x.id = s.newSessionId from newSessionId_of_tocsin htocsin]
    exact newSessionId_fresh hroom
  · have hlinked : (v.formSession x).tocsin.links.getD port false = true := by rw [formSession, htocsin]; exact hlink
    rw [sendTocsin_linked hlinked, emit_out, formSession, hvout]
  · generalize (v.formSession x).sendTocsin port (tocsinBytes 0x11 x.id 0 x.challenge) = t at hsent ⊢
    rw [hsent, formSession, hvs]

end

/-! ### PROOF -/

section
variable {s : State} {port : MgmtPort} {f : TocsinFrame}

theorem proof_badForm (h : f.body.length ≠ 96) : exec (.proof port f) s = .next (s.dropTocsin port) := by
  show execProof port f s = _
  rw [execProof, if_pos (by simpa using h)]

theorem proof_unknown (hlength : f.body.length = 96) (h : s.session f.session = none) : exec (.proof port f) s = .next s := by
  show execProof port f s = _
  simp [execProof, hlength, h]

theorem proof_exec {x : Session} (hlength : f.body.length = 96) (h : s.session f.session = some x) (hforming : x.isOpen = false) :
    exec (.proof port f) s = .next (if ecdsaVerify x.opKeyPoint (x.hello ++ x.challenge) f.body then
      s.updSession f.session (fun y => { y with isOpen := true }) else s) := by
  show execProof port f s = _
  simp [execProof, hlength, h, hforming, session_id h, apply_ite Host.Outcome.next]

theorem proof_verifies {x : Session} (hlength : f.body.length = 96) (h : s.session f.session = some x) (hforming : x.isOpen = false)
    (hproof : ecdsaVerify x.opKeyPoint (x.hello ++ x.challenge) f.body = true) : Completes (.proof port f) s (fun t =>
      t.session f.session = some { x with isOpen := true } ∧ (∀ n, n ≠ f.session → t.session n = s.session n) ∧
      t = { s with tocsin := { s.tocsin with sessions := t.tocsin.sessions } }) := by
  refine ⟨_, (proof_exec hlength h hforming).trans (by rw [if_pos hproof]), ?_, fun n hn => ?_, rfl⟩
  · exact updSession_session_self (by simp) h
  · exact updSession_session_ne (by simp) s hn

theorem proofTimeout_ends {n : Nat} {x : Session} (h : s.session n = some x) (hforming : x.isOpen = false) :
    Completes (.proofTimeout n) s (fun t => t.session n = none ∧ ∀ k, k ≠ n → t.session k = s.session k) := by
  refine ⟨s.endSession n, ?_, s.endSession_ends n⟩
  show execProofTimeout n s = _
  simp [execProofTimeout, h, hforming]

theorem proofTimeout_open {n : Nat} {x : Session} (h : s.session n = some x) (hopen : x.isOpen = true) :
    exec (.proofTimeout n) s = .next s := by
  show execProofTimeout n s = _
  simp [execProofTimeout, h, hopen]

end
end State
end Sys2Proof.Machine
end

section
/-! SUPPORT. Frames of an open session, records on their way to the mailbox, and the reply in clear (R421, R458, R459, R461). -/

namespace Sys2Proof.Machine
namespace State

section
variable {s : State} {port kind : Nat} {f : TocsinFrame} {x : Session}

/-! ### Sealed frames -/

theorem openFrame_unknown (h : s.session f.session = none) : s.openFrame port kind f = (none, s) := by
  rw [openFrame, h]

theorem openFrame_replayed (h : s.session f.session = some x) (hopen : x.isOpen = true) (hseq : f.seq ≤ x.rxSeq) :
    s.openFrame port kind f = (none, s.dropTocsin port) := by
  simp [openFrame, h, hopen, hseq]

/-- A frame under a new sequence that its tag verifies gives its plaintext, and its sequence counts as accepted. -/
theorem openFrame_opens {pt : Octets} (h : s.session f.session = some x) (hopen : x.isOpen = true) (hseq : x.rxSeq < f.seq)
    (hlength : 16 ≤ f.body.length)
    (hseal : gcmOpen x.opKey (x.opSalt ++ beBytes 8 f.seq) (frameHead kind f) (f.body.take (f.body.length - 16))
      (f.body.drop (f.body.length - 16)) = some pt) :
    s.openFrame port kind f = (some (x, pt), s.updSession f.session (fun y => { y with rxSeq := f.seq })) := by
  simp [openFrame, h, hopen, not_le.2 hseq, not_lt.2 hlength, hseal, session_id h]

/-! ### Records -/

theorem queueRecord_frame (s : State) (via : Option (Nat × Nat)) (y : Octets) :
    s.queueRecord via y = { s with
      mail := { s.mail with queue := s.mail.queue ++ [⟨via, y⟩] }, handed := (s.queueRecord via y).handed } := by
  unfold queueRecord handOnce
  dsimp only
  split
  · split <;> rfl
  · rfl

theorem mem_handOnce (s : State) (i : Instr) : (none, i) ∈ (s.handOnce i).handed := by
  unfold handOnce
  split
  · rename_i h
    obtain ⟨⟨id, j⟩, hmem, hj⟩ := List.any_eq_true.1 h
    obtain ⟨rfl, rfl⟩ : id = none ∧ j = i := by simpa using hj
    exact hmem
  · simp

theorem queueRecord_go (h : s.mail.current = none) (via : Option (Nat × Nat)) (y : Octets) : (none, Instr.go) ∈ (s.queueRecord via y).handed := by
  have ht : s.queueRecord via y = ({ s with mail := { s.mail with queue := s.mail.queue ++ [⟨via, y⟩] } } : State).handOnce .go := by
    simp [queueRecord, h]
  rw [ht]
  exact mem_handOnce _ _

/-- A record that comes in one piece goes to the mailbox's queue, and nothing of it stays in assembly. -/
theorem takePiece_whole {y : Octets} (hmin : 8 ≤ y.length) (hmax : y.length ≤ 16777216) :
    s.takePiece x port (carrierBytes y) =
      (s.updSession x.id (fun w => { w with assembling := none })).queueRecord (some (x.id, port)) y := by
  have htotal : beAt 4 4 (carrierBytes y) = y.length := beAt_four_carrierBytes (by omega)
  simp [takePiece, htotal, bitOf, Nat.testBit, not_lt.2 hmin, not_lt.2 hmax]

theorem clearRecord_whole {y : Octets} (hunbound : s.activeOwner = none) (hlength : y.length < 2 ^ 32) :
    s.clearRecord port (carrierBytes y) = s.queueRecord (some (0, port)) y := by
  simp [clearRecord, hunbound, beAt_four_carrierBytes hlength]

theorem clearRecord_owned (h : s.activeOwner.isSome = true) (y : Octets) : s.clearRecord port y = s := by
  simp [clearRecord, h]

end

section
variable {s : State} {port : MgmtPort} {f : TocsinFrame} {x : Session} {y : Octets}

theorem record_opened {t : State} {pt : Octets} (hsession : f.session ≠ 0) (h : s.openFrame port 0x20 f = (some (x, pt), t))
    (hpt : pt.isEmpty = false) : exec (.record port f) s = .next (t.takePiece x port pt) := by
  show execRecord port f s = _
  rw [execRecord, if_neg (by simpa using hsession), h]
  simp [hpt]

theorem record_notOpened {t : State} (hsession : f.session ≠ 0) (h : s.openFrame port 0x20 f = (none, t)) :
    exec (.record port f) s = .next t := by
  show execRecord port f s = _
  rw [execRecord, if_neg (by simpa using hsession), h]

theorem record_clear_exec (hsession : f.session = 0) :
    exec (.record port f) s = .next (if s.fwServes then s.clearRecord port f.body else s) := by
  show execRecord port f s = _
  rw [execRecord, if_pos (by simpa using hsession)]

theorem record_queued (hsession : f.session ≠ 0) (h : s.session f.session = some x) (hopen : x.isOpen = true) (hseq : x.rxSeq < f.seq)
    (hlength : 16 ≤ f.body.length) (hmin : 8 ≤ y.length) (hmax : y.length ≤ 16777216)
    (hseal : gcmOpen x.opKey (x.opSalt ++ beBytes 8 f.seq) (frameHead 0x20 f) (f.body.take (f.body.length - 16))
      (f.body.drop (f.body.length - 16)) = some (carrierBytes y)) :
    Completes (.record port f) s (fun t =>
      t.mail = { s.mail with queue := s.mail.queue ++ [⟨some (f.session, port.val), y⟩] } ∧
      t.session f.session = some { x with rxSeq := f.seq, assembling := none } ∧ (∀ n, n ≠ f.session → t.session n = s.session n) ∧
      (s.mail.current = none → (none, Instr.go) ∈ t.handed) ∧ t = { s with mail := t.mail, tocsin := t.tocsin, handed := t.handed }) := by
  let v := (s.updSession f.session (fun y => { y with rxSeq := f.seq })).updSession f.session (fun w => { w with assembling := none })
  have hexec : exec (.record port f) s = .next (v.queueRecord (some (f.session, port.val)) y) := by
    rw [record_opened hsession (openFrame_opens h hopen hseq hlength hseal) rfl, takePiece_whole hmin hmax, session_id h]
  have hframe := v.queueRecord_frame (some (f.session, port.val)) y
  have htocsin : (v.queueRecord (some (f.session, port.val)) y).tocsin = v.tocsin := by rw [hframe]
  refine ⟨_, hexec, ?_, ?_, fun n hn => ?_, fun hidle => queueRecord_go (s := v) hidle _ _, ?_⟩
  · rw [hframe]; rfl
  · rw [session_of_tocsin htocsin, updSession_session_self (by simp) (updSession_session_self (by simp) h)]
  · rw [session_of_tocsin htocsin, updSession_session_ne (by simp) _ hn, updSession_session_ne (by simp) _ hn]
  · generalize v.queueRecord (some (f.session, port.val)) y = t at hframe ⊢
    rw [hframe]
    rfl

theorem record_clear (hsession : f.session = 0) (hbody : f.body = carrierBytes y) (hlength : y.length < 2 ^ 32) (hserves : s.fwServes = true)
    (hunbound : s.activeOwner = none) : Completes (.record port f) s (fun t =>
      t.mail = { s.mail with queue := s.mail.queue ++ [⟨some (0, port.val), y⟩] } ∧ t = { s with mail := t.mail, handed := t.handed }) := by
  have hexec : exec (.record port f) s = .next (s.queueRecord (some (0, port.val)) y) := by
    rw [record_clear_exec hsession, hbody, if_pos hserves, clearRecord_whole hunbound hlength]
  have hframe := s.queueRecord_frame (some (0, port.val)) y
  refine ⟨_, hexec, ?_, ?_⟩
  · rw [hframe]
  · generalize s.queueRecord (some (0, port.val)) y = t at hframe ⊢
    rw [hframe]

theorem record_clear_ignored (hsession : f.session = 0) (h : s.fwServes = false ∨ s.activeOwner.isSome = true) :
    exec (.record port f) s = .next s := by
  rw [record_clear_exec hsession]
  rcases h with h | h
  · rw [h]; rfl
  · rw [clearRecord_owned h, ite_self]

theorem record_close_replayed (hsession : f.session ≠ 0) (h : s.session f.session = some x) (hopen : x.isOpen = true)
    (hseq : f.seq ≤ x.rxSeq) :
    exec (.record port f) s = .next (s.dropTocsin port) ∧ exec (.close port f) s = .next (s.dropTocsin port) := by
  refine ⟨record_notOpened hsession (openFrame_replayed h hopen hseq), ?_⟩
  · show execClose port f s = _
    rw [execClose, openFrame_replayed h hopen hseq]

theorem record_close_unknown (hsession : f.session ≠ 0) (h : s.session f.session = none) :
    exec (.record port f) s = .next s ∧ exec (.close port f) s = .next s := by
  refine ⟨record_notOpened hsession (openFrame_unknown h), ?_⟩
  · show execClose port f s = _
    rw [execClose, openFrame_unknown h]

theorem close_ends (h : s.session f.session = some x) (hopen : x.isOpen = true) (hseq : x.rxSeq < f.seq) (hlength : 16 ≤ f.body.length)
    (hseal : gcmOpen x.opKey (x.opSalt ++ beBytes 8 f.seq) (frameHead 0x22 f) (f.body.take (f.body.length - 16))
      (f.body.drop (f.body.length - 16)) = some y) :
    Completes (.close port f) s (fun t => t.session f.session = none ∧ ∀ n, n ≠ f.session → t.session n = s.session n) := by
  let v := s.updSession f.session (fun y => { y with rxSeq := f.seq })
  have hexec : exec (.close port f) s = .next (v.endSession f.session) := by
    show execClose port f s = _
    rw [execClose, openFrame_opens h hopen hseq hlength hseal]
    simp only [session_id h]
    rfl
  obtain ⟨hgone, hothers⟩ := v.endSession_ends f.session
  exact ⟨_, hexec, hgone, fun n hn => (hothers n hn).trans (updSession_session_ne (by simp) s hn)⟩

/-! ### The reply in clear -/

/-- The reply to a record in clear leaves in clear on its port. -/
theorem answer_clear {port : Nat} (hcurrent : s.mail.current = some ⟨some (0, port), y⟩) (hlink : s.tocsin.links.getD port false = true)
    (st : Status) (z : Octets) : .tocsin port (tocsinBytes 0x21 0 0 (carrierBytes z)) ∈ (s.answer st z).out := by
  let v : State := { s with mail := { s.mail with status := statusCode st, reply := z } }
  have hanswer : s.answer st z = v.freeMail.sendTocsin port (tocsinBytes 0x21 0 0 (carrierBytes z)) := by
    simp [answer, hcurrent, sendReply, v]
  have hfree : v.freeMail.tocsin.links.getD port false = true := by rw [freeMail_frame]; exact hlink
  rw [hanswer, sendTocsin_linked hfree]
  simp

/-- An event does not touch the record in the mailbox, nor the links. -/
theorem raise_reply_clear {port : Nat} (hcurrent : s.mail.current = some ⟨some (0, port), y⟩) (hlink : s.tocsin.links.getD port false = true)
    (code : Nat) (p : Option Nat) (z : Octets) (type : Nat) (st : Status) :
    .tocsin port (tocsinBytes 0x21 0 0 (carrierBytes (replyBytes type st []))) ∈ ((s.raise code p z).reply type st []).out := by
  obtain ⟨e, f, h, -⟩ := s.raise_frame code p z
  rw [h]
  exact answer_clear (s := { s with events := e, flash := f }) hcurrent hlink st _

theorem raise_out (s : State) (code : Nat) (p : Option Nat) (z : Octets) : (s.raise code p z).out = s.out :=
  show (s.raise code p z).still.out = s.still.out from congrArg State.out (s.raise_still code p z)

theorem secondLost_out (s : State) (u : Update) : (s.secondLost u).out = s.out := by
  unfold secondLost
  split
  · exact s.raise_out _ _ _
  · rfl

/-- What has left the device stays sent over a reset. -/
theorem warmReset_out (s : State) (trigger : Nat) : (s.warmReset trigger).out = s.out := by
  show s.updateLost.out = s.out
  unfold updateLost
  split
  · split
    · rfl
    · split
      · exact s.secondLost_out _
      · exact s.raise_out _ _ _
  · rfl

/-- The reply to an owner bind record in clear leaves on its port, whether the record is rejected or binds. -/
theorem ownerBind_replies {port : Nat} {z : Octets} (hcurrent : s.mail.current = some ⟨some (0, port), y⟩)
    (hlink : s.tocsin.links.getD port false = true) :
    (∀ st, s.bindCase z = .error st → Completes (.ownerBind z) s (fun t =>
      .tocsin port (tocsinBytes 0x21 0 0 (carrierBytes (replyBytes 0x0D02 st []))) ∈ t.out)) ∧
    (s.bindCase z = .ok false → Completes (.ownerBind z) s (fun t =>
      .tocsin port (tocsinBytes 0x21 0 0 (carrierBytes (replyBytes 0x0D02 .ok []))) ∈ t.out)) := by
  refine ⟨fun st h => ⟨s.bindOwner z, rfl, ?_⟩, fun h => ⟨s.bindOwner z, rfl, ?_⟩⟩
  · rw [bindOwner, h]
    exact raise_reply_clear hcurrent hlink _ _ _ _ _
  · rw [bindOwner, h]
    dsimp only
    rw [warmReset_out, if_neg Bool.false_ne_true]
    let v : State := { s with owner := s.owner.set (octetAt 12 z) (.valid (BitVec.ofNat 384 (beNat (sha384 (slice 16 97 z))))) }
    exact raise_reply_clear (s := v) hcurrent hlink _ _ _ _ _

end
end State
end Sys2Proof.Machine
end

section
/-! SUPPORT. The management firmware: what arrives at the MGMT ports, heartbeats, and a restart (R414 to R418). -/

namespace Sys2Proof.Machine
namespace State

/-! ### Frames that arrive -/

section
variable {s : State} {port : MgmtPort} {x : Octets}

theorem tocsinFrameDrop_drops (h : beAt 12 2 x ≠ 0x88B6 ∨ 1514 < x.length ∨ tocsinHeadOk (x.drop 14) = false) :
    exec (.tocsinFrameDrop port x) s = .next (s.dropTocsin port) := by
  show execTocsinFrameDrop port x s = _
  rw [execTocsinFrameDrop]
  exact if_pos (by simpa [or_assoc] using h)

theorem tocsinFrameDrop_hello (htype : beAt 12 2 x = 0x88B6) (hlength : x.length ≤ 1514) (hhead : tocsinHeadOk (x.drop 14) = true)
    (hkind : octetAt 1 (x.drop 14) = 0x10) :
    exec (.tocsinFrameDrop port x) s = .next (s.hand (.hello port (tocsinFrameOf (x.drop 14)))) := by
  show execTocsinFrameDrop port x s = _
  simp [execTocsinFrameDrop, htype, not_lt.2 hlength, hhead, hkind]

end

/-! ### Heartbeats (R418) -/

/-- The state in which a port's report has been counted. -/
def countBeat (s : State) (n : Nat) : State :=
  { s with tocsin := { s.tocsin with beats := s.tocsin.beats.set n (s.tocsin.beats.getD n 0 + 1) } }

/-- The octets of a port's next report. -/
def beatFrame (s : State) (kind n : Nat) : Octets := tocsinBytes kind 0 (s.tocsin.beats.getD n 0 + 1) (s.heartbeatBody n)

/-- A report on one MGMT port: it is counted and leaves where the link is up. -/
def beatOn (s : State) (kind n : Nat) : State :=
  if s.tocsin.links.getD n false then (s.countBeat n).sendTocsin n (s.beatFrame kind n) else s

theorem beat_eq (s : State) (kind : Nat) : s.beat kind = (s.beatOn kind 0).beatOn kind 1 := rfl

theorem beatOn_linked {s : State} {n : Nat} (kind : Nat) (h : s.tocsin.links.getD n false = true) :
    s.beatOn kind n = (s.countBeat n).emit (.tocsin n (s.beatFrame kind n)) := by
  rw [beatOn, if_pos h]
  exact sendTocsin_linked (s := s.countBeat n) h _

theorem beatOn_unlinked {s : State} {n : Nat} (kind : Nat) (h : s.tocsin.links.getD n false = false) : s.beatOn kind n = s := by
  rw [beatOn, h]; rfl

section
variable (s : State) (kind n : Nat)

/-- A report changes nothing but its port's sequence and what leaves. -/
theorem beatOn_frame : s.beatOn kind n =
    { s with tocsin := { s.tocsin with beats := (s.beatOn kind n).tocsin.beats }, out := (s.beatOn kind n).out } := by
  cases h : s.tocsin.links.getD n false
  · rw [beatOn_unlinked kind h]
  · rw [beatOn_linked kind h]; rfl

theorem beatOn_links : (s.beatOn kind n).tocsin.links = s.tocsin.links := by
  rw [beatOn_frame]

theorem beatOn_heartbeatBody (m : Nat) : (s.beatOn kind n).heartbeatBody m = s.heartbeatBody m := by
  rw [beatOn_frame]; rfl

theorem beatOn_beats_ne {m : Nat} (h : m ≠ n) : (s.beatOn kind n).tocsin.beats.getD m 0 = s.tocsin.beats.getD m 0 := by
  cases hl : s.tocsin.links.getD n false
  · rw [beatOn_unlinked kind hl]
  · rw [beatOn_linked kind hl]
    simp [countBeat, List.getElem?_set_ne h.symm]

theorem beatOn_length : (s.beatOn kind n).tocsin.beats.length = s.tocsin.beats.length := by
  cases h : s.tocsin.links.getD n false
  · rw [beatOn_unlinked kind h]
  · rw [beatOn_linked kind h]
    simp [countBeat]

variable {s n}

theorem beatOn_sends (h : s.tocsin.links.getD n false = true) (hn : n < s.tocsin.beats.length) :
    (s.beatOn kind n).tocsin.beats.getD n 0 = s.tocsin.beats.getD n 0 + 1 ∧ .tocsin n (s.beatFrame kind n) ∈ (s.beatOn kind n).out := by
  rw [beatOn_linked kind h]
  simp [countBeat, hn]

theorem mem_out_beatOn {o : Output} (h : o ∈ s.out) : o ∈ (s.beatOn kind n).out := by
  cases hl : s.tocsin.links.getD n false
  · rw [beatOn_unlinked kind hl]; exact h
  · rw [beatOn_linked kind hl, emit_out]
    exact List.mem_append_left _ h

end

theorem heartbeat_reports {s : State} (hserves : s.fwServes = true) (hlength : s.tocsin.beats.length = 2) :
    Completes .heartbeat s (fun t =>
      (∀ n < 2, s.tocsin.links.getD n false = true → t.tocsin.beats.getD n 0 = s.tocsin.beats.getD n 0 + 1 ∧
        .tocsin n (tocsinBytes 1 0 (s.tocsin.beats.getD n 0 + 1) (s.heartbeatBody n)) ∈ t.out) ∧
      (∀ n, s.tocsin.links.getD n false = false → t.tocsin.beats.getD n 0 = s.tocsin.beats.getD n 0) ∧
      t = { s with tocsin := { s.tocsin with beats := t.tocsin.beats }, out := t.out }) := by
  have hexec : exec .heartbeat s = .next ((s.beatOn 1 0).beatOn 1 1) := by
    show execHeartbeat s = _
    rw [execHeartbeat, if_pos hserves, beat_eq]
  generalize hu : s.beatOn 1 0 = u at hexec
  have hlinks : u.tocsin.links = s.tocsin.links := by rw [← hu, beatOn_links]
  have hlength' : u.tocsin.beats.length = 2 := by rw [← hu, beatOn_length, hlength]
  have hfirst : ∀ m, m ≠ 0 → u.tocsin.beats.getD m 0 = s.tocsin.beats.getD m 0 := fun m hm => by rw [← hu]; exact s.beatOn_beats_ne 1 0 hm
  refine ⟨_, hexec, fun n hn hlink => ?_, fun n hlink => ?_, ?_⟩
  · obtain rfl | rfl : n = 0 ∨ n = 1 := by omega
    · obtain ⟨hcount, hsent⟩ := beatOn_sends 1 hlink (by omega)
      rw [hu] at hcount hsent
      exact ⟨(u.beatOn_beats_ne 1 1 (by decide)).trans hcount, mem_out_beatOn 1 hsent⟩
    · obtain ⟨hcount, hsent⟩ := beatOn_sends (s := u) (n := 1) 1 (by rw [hlinks]; exact hlink) (by omega)
      have hbody : u.heartbeatBody 1 = s.heartbeatBody 1 := by rw [← hu, beatOn_heartbeatBody]
      rw [beatFrame, hfirst 1 (by decide), hbody] at hsent
      exact ⟨hcount.trans (by rw [hfirst 1 (by decide)]), hsent⟩
  · by_cases hone : n = 1
    · subst hone
      rw [beatOn_unlinked 1 (by rw [hlinks]; exact hlink), hfirst 1 (by decide)]
    · rw [beatOn_beats_ne _ _ _ hone]
      by_cases hzero : n = 0
      · subst hzero
        rw [← hu, beatOn_unlinked 1 hlink]
      · exact hfirst n hzero
  · have hone := s.beatOn_frame 1 0
    have htwo := u.beatOn_frame 1 1
    rw [hu] at hone
    generalize u.beatOn 1 1 = t at htwo ⊢
    rw [htwo, hone]

theorem heartbeat_silent {s : State} (h : s.fwServes = false) : exec .heartbeat s = .next s := by
  show execHeartbeat s = _
  rw [execHeartbeat, h]; rfl

/-! ### A firmware restart (R414, R415) -/

/-- The state in which a restart has ended the sessions and abandoned the update in progress. -/
def fwEnded (s : State) : State :=
  let t := (s.tocsin.sessions.map Session.id).foldl endSession s
  if t.flash.update.any (fun u => !u.background) then t.abandonUpdate 0 else t

theorem fwEnded_only (s : State) : updateOnly s s.fwEnded := by
  have hsessions := endSessions_only (s.tocsin.sessions.map Session.id) s
  unfold fwEnded
  dsimp only
  split
  · exact updateOnly_trans hsessions (abandonUpdate_only _ 0 false)
  · exact hsessions

theorem fwEnded_sessions (s : State) : s.fwEnded.tocsin.sessions = [] := by
  refine sessions_nil fun k => ?_
  unfold fwEnded
  dsimp only
  split
  · exact abandonUpdate_session_none (s.endAll_session k) 0 false
  · exact s.endAll_session k

theorem fwEnded_update {s : State} {u : Update} (h : s.fwEnded.flash.update = some u) : u.background = true := by
  unfold fwEnded at h
  dsimp only at h
  split at h
  · rw [abandonUpdate_update] at h
    cases h
  · rename_i hno
    rw [h] at hno
    simpa using hno

/-- The times of the restarts within 600 s of the present one, which is the last of them. -/
def restartTimes (s : State) : List Nat := s.boot.fwTimes.filter (fun x => decide (s.quartz.secs < x + 600)) ++ [s.quartz.secs]

/-- The state in which the firmware is down: the mailbox forgets its records, and the restart is counted. -/
def fwRestarted (s : State) : State :=
  { s.fwEnded with
    mail := { s.fwEnded.mail with queue := [], current := none }
    boot := { s.fwEnded.boot with
      fwRestarts := (s.fwEnded.boot.fwRestarts + 1) % 2 ^ 32, fwTimes := s.fwEnded.restartTimes, fwWatch := s.fwEnded.cycle,
      fwDown := true } }

theorem restartFw_eq {s : State} (hruns : s.fwRuns = true) (hrom : s.boot.bootrom = false) :
    s.restartFw = if s.fwEnded.restartTimes.length < 4 then s.fwRestarted
      else ({ s.fwRestarted with boot := { s.fwRestarted.boot with bootrom := true } } : State).raise 0x0902 none
        (oct 1 ++ oct s.fwEnded.restartTimes.length) := by
  rw [restartFw, if_neg (by simp [hruns, hrom])]
  rfl

/-- The fourth restart within 600 s leaves the boot-ROM program to serve, with an event; any other leaves the firmware. -/
theorem restartFw_frame {s : State} (hruns : s.fwRuns = true) (hrom : s.boot.bootrom = false) :
    ∃ (e : EventLog) (f : Flash), f.update = s.fwEnded.flash.update ∧
      s.restartFw = { s.fwRestarted with
        boot := { s.fwRestarted.boot with bootrom := decide (3 ≤ (s.boot.fwTimes.filter (fun x => decide (s.quartz.secs < x + 600))).length) }
        events := e, flash := f } := by
  have honly := s.fwEnded_only
  have hboot : s.fwEnded.boot = s.boot := by rw [honly]
  have hquartz : s.fwEnded.quartz = s.quartz := by rw [honly]
  have hlength : s.fwEnded.restartTimes.length = (s.boot.fwTimes.filter (fun x => decide (s.quartz.secs < x + 600))).length + 1 := by
    rw [restartTimes, hboot, hquartz, List.length_append, List.length_singleton]
  have hrom' : s.fwRestarted.boot.bootrom = false := (congrArg Boot.bootrom hboot).trans hrom
  rw [restartFw_eq hruns hrom]
  split
  · refine ⟨s.fwEnded.events, s.fwEnded.flash, rfl, ?_⟩
    rw [decide_eq_false (by omega), ← hrom']
    rfl
  · obtain ⟨e, f, hraise, -, hupdate, -⟩ := State.raise_frame
      { s.fwRestarted with boot := { s.fwRestarted.boot with bootrom := true } } 0x0902 none (oct 1 ++ oct s.fwEnded.restartTimes.length)
    refine ⟨e, f, hupdate, ?_⟩
    rw [hraise, decide_eq_true (by omega)]

theorem restartFw_facts {s : State} (hruns : s.fwRuns = true) (hrom : s.boot.bootrom = false) :
    s.restartFw.tocsin.sessions = [] ∧ s.restartFw.mail.queue = [] ∧ s.restartFw.mail.current = none ∧
    s.restartFw.mail.buffer = s.mail.buffer ∧ s.restartFw.boot.fwRestarts = (s.boot.fwRestarts + 1) % 2 ^ 32 ∧
    s.restartFw.boot.fwDown = true ∧
    s.restartFw.boot.bootrom = decide (3 ≤ (s.boot.fwTimes.filter (fun x => decide (s.quartz.secs < x + 600))).length) ∧
    (∀ u, s.restartFw.flash.update = some u → u.background = true) ∧ s.restartFw.basalt = s.basalt ∧ s.restartFw.parts = s.parts ∧
    s.restartFw.keys = s.keys := by
  obtain ⟨e, f, hupdate, h⟩ := restartFw_frame hruns hrom
  have honly := s.fwEnded_only
  have hbuffer : s.fwEnded.mail.buffer = s.mail.buffer := by rw [honly]
  have hboot : s.fwEnded.boot = s.boot := by rw [honly]
  have hbasalt : s.fwEnded.basalt = s.basalt := by rw [honly]
  have hparts : s.fwEnded.parts = s.parts := by rw [honly]
  have hkeys : s.fwEnded.keys = s.keys := by rw [honly]
  rw [h]
  refine ⟨s.fwEnded_sessions, rfl, rfl, hbuffer, ?_, rfl, rfl, fun u hu => fwEnded_update (hupdate.symm.trans hu), hbasalt, hparts, hkeys⟩
  rw [← hboot]
  rfl

theorem restartFw_idle {s : State} (h : s.fwRuns = false ∨ s.boot.bootrom = true) : s.restartFw = s := by
  rw [restartFw, if_pos]
  rcases h with h | h <;> simp [h]

end State
end Sys2Proof.Machine
end

section
/-! PROOF. Sessions and the management firmware (R414 to R421, R459, R461). -/

namespace Sys2Proof.Machine

/-- Settles O59. Sessions are followed by their number: `State.updSession_session` for a change, `State.endSession_session` for an end;
the number of a new one is free by counting (`State.newSessionId_fresh`); what a sealed frame gives is `State.openFrame`, and what a restart
leaves is `State.restartFw_frame`. -/
theorem sessionsServed : Obligations.SessionsServed := by
  unfold Obligations.SessionsServed
  refine ⟨fun s port f h => State.hello_badForm h, ?hello, fun s port f => State.hello_refused, fun s port f => State.proof_badForm, ?proof,
    fun s port f => State.proof_unknown, ?proofTimeout, ?record, fun s port f x => State.record_close_replayed,
    fun s port f => State.record_close_unknown, ?clear, fun s port x y _ hcurrent hlink => State.ownerBind_replies hcurrent hlink, ?close,
    fun s n => ⟨_, rfl, s.endSession_ends n⟩, ?expiry, fun s port x => State.tocsinFrameDrop_drops,
    fun s port x => State.tocsinFrameDrop_hello, fun _ _ _ => rfl, fun s => State.heartbeat_reports, fun s => State.heartbeat_silent,
    fun _ _ => rfl, ?restart, ?idle⟩
  case hello =>
    intro s u port f id nonce q hsession hlength hserves hok hid hq z hnonce
    exact State.hello_forms hsession hlength hserves hok hid hq hnonce
  case proof =>
    intro s port f x hlength h hforming
    refine ⟨State.proof_verifies hlength h hforming, fun hproof => ?_⟩
    rw [State.proof_exec hlength h hforming, hproof]; rfl
  case proofTimeout =>
    exact fun s n x h => ⟨State.proofTimeout_ends h, State.proofTimeout_open h⟩
  case record =>
    exact fun s port f x y hsession h hopen hseq hlength hmin hmax => State.record_queued hsession h hopen hseq hlength hmin hmax
  case clear =>
    exact fun s port f y hsession hbody hlength => ⟨State.record_clear hsession hbody hlength, State.record_clear_ignored hsession⟩
  case close =>
    exact fun s port f x y h hopen hseq hlength => State.close_ends h hopen hseq hlength
  case expiry =>
    intro s n
    have hexec : exec (.sessionCertExpiry n) s = .next (if s.quartz.set then s.endSession n else s) := rfl
    refine ⟨fun hset => ⟨_, hexec.trans (by rw [if_pos hset]), s.endSession_ends n⟩, fun hset => ?_⟩
    rw [hexec, hset]; rfl
  case restart =>
    intro s hruns hrom c hc
    have hexec : exec c s = .next s.restartFw := by
      obtain rfl | rfl : c = .fwWatchdogExpiry ∨ c = .fwLockstepFault := by simpa using hc
      · rfl
      · rfl
    exact ⟨_, hexec, State.restartFw_facts hruns hrom⟩
  case idle =>
    intro s h
    have hsame : Host.Outcome.next s.restartFw = (.next s : Host.Outcome State Fault Refusal) := by rw [State.restartFw_idle h]
    exact ⟨hsame, hsame⟩

end Sys2Proof.Machine
end
